-- ==== Sys2Proof/Word.lean ====
section
/-! DEFINITION. The word types of the block: fixed widths only. Spec: 00_scope.md R10, R12, R13. -/

namespace Sys2Proof

/-- `Word32` of R13: the logical input word, the masks, the counters and every other 32-bit quantity. -/
abbrev Word := BitVec 32

/-- A subscriber identifier, `SUB_W = 8` bits (R12, R37). -/
abbrev SubId := BitVec 8

/-- A pin identifier, `PIN_ID_W = 8` bits; `0xFF` means "not set" (R12, R32). -/
abbrev PinId := BitVec 8

/-- A value of the alarm-cause field, 8 bits (R42). -/
abbrev Alarm := BitVec 8

/-- A command word of the command port, 40 bits (R90, R91). -/
abbrev Command := BitVec 40

/-- A response word of the command port, 36 bits (R90, R99). -/
abbrev Response := BitVec 36

end Sys2Proof
end

