-- ==== Sys2Proof/Syntax.lean ====
section
/-! DEFINITION. Syntax: the eleven host commands (30_encoding.md R101), the status codes, the
enumerations of R108 and the script steps of the other agents (R112, R118), which have no encoding. -/

namespace Sys2Proof

/-- The host commands, one constructor per row of spec/opcode_table.json. The operands are those of
R100: `pin`, `chips` and `reg` are natural numbers (bounded in WellFormed.lean), identifiers are
8-bit words, `shiftIn` is one bit, `value` is a whole word. -/
inductive Instr where
  /-- `CFG_PINS clk, latch, data` (R232). -/
  | cfgPins (clk latch data : PinId)
  /-- `CFG_MODE shift_in, chips` (R234). -/
  | cfgMode (shiftIn : Bool) (chips : Nat)
  /-- `START` (R236). -/
  | start
  /-- `STOP` (R237). -/
  | stop
  /-- `ATTACH sub, pin` (R166). -/
  | attach (sub : SubId) (pin : Nat)
  /-- `DETACH pin` (R168). -/
  | detach (pin : Nat)
  /-- `READ_VALUE` (R169). -/
  | readValue
  /-- `RECONCILE value` (R170). -/
  | reconcile (value : Word)
  /-- `SET_PIN_USED pin` (R238). -/
  | setPinUsed (pin : Nat)
  /-- `GET_PINS_USED` (R239). -/
  | getPinsUsed
  /-- `RDREG reg` (R240). -/
  | rdreg (reg : Nat)
deriving DecidableEq, Repr

/-- The eleven opcodes of R101 by name: what stage 1 of decoding (R102) finds. -/
inductive Opcode where
  | cfgPins | cfgMode | start | stop | attach | detach | readValue | reconcile
  | setPinUsed | getPinsUsed | rdreg
deriving DecidableEq, Repr

/-- Why the decoder rejects a word (R102): an unknown opcode, or a reserved operand bit that is set. -/
inductive DecodeError where
  | illegalOp
  | reservedBits
deriving DecidableEq, Repr

/-- The status codes of R262, by name; the numbers are `Status.code`. -/
inductive Status where
  | ok | illegalOp | reservedBits | pinsIncomplete | numChips | running | notConfigured
  | pinRange | chipsConflict | reg | notRunning
deriving DecidableEq, Repr

/-- The controller state as far as the block's reference subscriber reads it (R43, R108). -/
inductive SysState where
  | other | alarmState | configAlarm | homing
deriving DecidableEq, Repr

/-- The direction classification of an endpoint (R44, R108): every code but 0, 1, 2 is invalid. -/
inductive Direction where
  | pos | neg | both
  | invalid (code : Nat)
deriving DecidableEq, Repr

/-- The source an endpoint is bound to (R44, R108): a logical pin of the bus, or a native
interrupt-capable pin. -/
inductive Source where
  | bus (pin : Fin 32)
  | native (pin : PinId)
deriving DecidableEq, Repr

/-- The shared words `ENV` can read (R211). -/
inductive SharedReg where
  | posMask | negMask | limitMask | alarm
deriving DecidableEq, Repr

/-- The steps that may fall at any quiescent point and also between two atomic actions of a
task-context reconciliation (R72, R73, R210, R211). -/
inductive EnvStep where
  /-- `NATIVE_CHANGE pin level` (R210), in interrupt context. -/
  | nativeChange (pin : PinId) (level : Bool)
  /-- `ENV SYS_STATE=x` (R211). -/
  | setSysState (x : SysState)
  /-- `ENV HARD_LIMITS=b` (R211). -/
  | setHardLimits (b : Bool)
  /-- `ENV CLEAR_ALARM` (R211). -/
  | clearAlarm
  /-- `ENV` records an alarm cause of its own (93_implementation_defined.md U4). -/
  | latchAlarm (cause : Alarm)
  /-- `ENV` reads a whole shared word (R211). -/
  | read (r : SharedReg)
deriving DecidableEq, Repr

/-- A step of an agent other than `HOST` (R17, R112, R118): none has an encoding. The draws of a
sampler step (`snap`, `pad`: R132, R133) are its arguments. -/
inductive AgentStep where
  /-- `FRAME snap pad`: `FRAME_DONE` of `SAMPLER` (R135). -/
  | frameDone (snap pad : Word)
  /-- `POLL snap`: `POLL_CYCLE` of `POLLER` (R152). -/
  | pollCycle (snap : Word)
  /-- `LE_CONSTRUCT` (R202); `dir` is a direction code of R108, any number. -/
  | leConstruct (sub : SubId) (axis motor dir : Nat) (source : Source)
  /-- `LE_INITIALIZE` (R204). -/
  | leInitialize (sub : SubId)
  /-- `LE_MAKE_DUAL_AXIS_MASK` (R208). -/
  | leMakeDualAxisMask (sub : SubId)
  /-- `LE_TEARDOWN` (R209). -/
  | leTeardown (sub : SubId)
  /-- `NATIVE_CHANGE` or an `ENV` step at a quiescent point (R210, R211). -/
  | env (e : EnvStep)
deriving DecidableEq, Repr

/-- What comes to the machine from outside: a command word on the command port (R90), or a step of
another agent. -/
inductive Input where
  | command (w : Command)
  | agent (a : AgentStep)
deriving DecidableEq, Repr

/-- How a LimitEndpoint operation ended (R263): these outcomes are no words on the port. -/
inductive LeOutcome where
  | ok
  /-- `LE_ERR_DIRECTION`: a report of `LE_CONSTRUCT`, a refusal of `LE_INITIALIZE`. -/
  | errDirection
  /-- `LE_ERR_RANGE`: `axis` or `motor` out of range in `LE_CONSTRUCT`. -/
  | errRange
  /-- The status a refused `ATTACH` inside `LE_INITIALIZE` handed back. -/
  | errAttach (st : Status)
deriving DecidableEq, Repr

end Sys2Proof
end

