-- ==== Sys2Proof/Machine/State.lean ====
section
/-! DEFINITION. The state of the machine (10_state.md), the reasons a step can stop, and reset (R47).

A state of this model is a quiescent point (R19): a step takes one whole action of one agent. -/

namespace Sys2Proof.Machine

/-- The registers of the block (R20), the register file `CB` included. -/
structure Bus where
  /-- `LIW`, the logical input word (R21). -/
  liw : Word
  /-- `PREV`, the comparator's reference word (R22). -/
  prev : Word
  /-- `FB`, the DMA frame buffer: one raw word (R23). -/
  fb : Word
  /-- `RUN` (R28). -/
  run : Bool
  /-- `INTEREST` (R29). -/
  interest : Word
  /-- `HI`, the exclusive scan bound, 0 to 32 (R30). -/
  hi : BitVec 6
  /-- `PINS_USED` (R31). -/
  pinsUsed : Word
  /-- `CFG_PINS`: clock, latch and data pin identifiers (R32). -/
  cfgPins : BitVec 24
  /-- `CFG_MODE`: `USE_SHIFT_IN` in bit 8, `NUM_CHIPS` in bits 2:0 (R34). -/
  cfgMode : BitVec 9
  /-- `FRAMES` (R35). -/
  frames : Word
  /-- `CHANGES` (R35). -/
  changes : Word
  /-- `CB[0..31]`, the callback table (R37). -/
  cb : Vector (Option SubId) 32
deriving DecidableEq, Repr

/-- One LimitEndpoint record `EP[s]` (R44). -/
structure Endpoint where
  axis : Nat
  motor : Nat
  dir : Direction
  bitmask : Word
  source : Source
  participates : Bool
  attached : Bool
deriving DecidableEq, Repr

/-- The other side of the callback interface: the collaborators' state (R41 to R44), the trace
`ESTOPS` (R45), and the model's own fields for what the environment does there. -/
structure Collab where
  /-- `POS_MASK` (R41). -/
  posMask : Word
  /-- `NEG_MASK` (R41). -/
  negMask : Word
  /-- `LIMIT_MASK` (R41). -/
  limitMask : Word
  /-- `ALARM` (R42). -/
  alarm : Alarm
  /-- `SYS_STATE` (R43). -/
  sysState : SysState
  /-- `HARD_LIMITS` (R43). -/
  hardLimits : Bool
  /-- `EP[0..255]`, `none` where no endpoint has been constructed (R44, R47). -/
  ep : Vector (Option Endpoint) 256
  /-- `ESTOPS`, the count of emergency-stop calls (R45, R212). -/
  estops : Nat
  /-- Model's own: the words `ENV` has read, oldest first (R211). -/
  envReads : List (SharedReg × Word)
  /-- Model's own: the steps `ENV` and the native pins take before each coming atomic action of a
  task-context reconciliation, one list per action (R72, R73). -/
  preempts : List (List EnvStep)
  /-- Model's own: the subscribers that have a supplied handler, a parameter no step writes (R46,
  R175). -/
  supplied : List SubId
  /-- Model's own: how many free values have been drawn. -/
  draws : Nat
deriving DecidableEq, Repr

/-- One record of `EVENTS`: which subscriber was invoked for which pin at which level (R45, R110). -/
structure Event where
  sub : SubId
  pin : Nat
  lvl : Bool
deriving DecidableEq, Repr

/-- The whole machine: the block, its collaborators, the traces, and the inputs still to come. -/
structure State where
  /-- The block's registers (R20). -/
  bus : Bus
  /-- The collaborators (R20, R41 to R44). -/
  col : Collab
  /-- `EVENTS`, every dispatch made, oldest first (R45). -/
  events : List Event
  /-- Model's own: the response words the port has given, one per command, oldest first (R90). -/
  responses : List Response
  /-- Model's own: how each LimitEndpoint operation ended, oldest first (R263). -/
  leOutcomes : List LeOutcome
  /-- Model's own: what the agents outside do next, in order (R17, R72). -/
  inputs : List Input
deriving DecidableEq, Repr

/-- Why the machine can stop in a fault. Both are safe: the spec gives the case no effect. -/
inductive Fault where
  /-- Raised by the dispatch loop of `Reconcile` when it finds an interested, changed pin whose `CB`
  entry is `none`. R38 (d) and R172 say this never happens: no state that meets the invariants of
  R38 raises it. Safe. -/
  | noSubscriber
  /-- Raised by `LE_INITIALIZE`, `LE_MAKE_DUAL_AXIS_MASK` and `LE_TEARDOWN` of a subscriber
  identifier under which no endpoint has been constructed: the operation of an instance that does
  not exist (R44, R47). No command raises it. Safe. -/
  | noEndpoint
deriving DecidableEq, Repr

/-- Why a step can have no meaning. -/
inductive Refusal where
  /-- Raised by an arm of `exec` for an instruction without a meaning; no arm of this model does.
  Safe. -/
  | notModelled (mnemonic : String)
deriving DecidableEq, Repr

/-- The block right after reset (R47). `FB` is unspecified there; the model names 0
(DESIGN CHOICE, notes/assumptions/1.md). -/
def Bus.reset : Bus where
  liw := 0#32
  prev := 0#32
  fb := 0#32
  run := false
  interest := 0#32
  hi := 0#6
  pinsUsed := 0#32
  cfgPins := 0xFFFFFF#24
  cfgMode := 0x001#9
  frames := 0#32
  changes := 0#32
  cb := Vector.replicate 32 none

/-- The collaborators at the start state of R47, with the model's own fields empty. -/
def Collab.reset : Collab where
  posMask := 0#32
  negMask := 0#32
  limitMask := 0#32
  alarm := 0#8
  sysState := .other
  hardLimits := false
  ep := Vector.replicate 256 none
  estops := 0
  envReads := []
  preempts := []
  supplied := []
  draws := 0

/-- The machine right after reset (R47, R300): idle, no command answered, nothing offered. -/
def State.reset : State where
  bus := Bus.reset
  col := Collab.reset
  events := []
  responses := []
  leOutcomes := []
  inputs := []

end Sys2Proof.Machine
end

