-- ==== Sys2Proof/Config.lean ====
section
/-! DEFINITION. What the spec leaves to an implementation or leaves open. Each open value is an
opaque constant: no proof can see which value it has. -/

namespace Sys2Proof.Config

open Sys2Proof.Machine

/-- `ALARM = NONE` (R108). -/
def alarmNone : Alarm := 0#8

/-- `ALARM = HARD_LIMIT` (R108). -/
def alarmHardLimit : Alarm := 1#8

/-- The identifier that means "not set" (R12, R32). -/
def pinNotSet : PinId := 0xFF#8

/-- The open parameter `MAX_AXES` less one (R12, 92_eei_decisions.md D24): any of 0 to 15. -/
opaque maxAxesLessOne : Fin 16

/-- `MAX_AXES`, the number of axes of the collaborator, 1 to 16 (R12). -/
def maxAxes : Nat := maxAxesLessOne.val + 1

/-- The level a handler finds on a native pin when it is not run by a `NATIVE_CHANGE`: R205 states
none. A free value, drawn afresh by the counter `draws`. -/
opaque freeNativeLevel : Nat → Bool

/-- What one invocation of a supplied handler does to the shared words: bits set and cleared in the
two masks, an alarm cause it tries to record (0 for none), whether it calls the emergency stop. -/
structure HandlerEffect where
  setPos : Word
  clearPos : Word
  setNeg : Word
  clearNeg : Word
  cause : Alarm
  estop : Bool
deriving DecidableEq, Repr, Inhabited

/-- The handler of a subscriber that is no LimitEndpoint (R46, R175): a parameter of the model. It
may read everything on its side of the interface and `LIW` (R181); the counter `draws` in the
collaborators' state makes each invocation free. -/
opaque suppliedHandler (sub : SubId) (pin : Nat) (lvl : Bool) (liw : Word) (c : Collab) :
    HandlerEffect

/-- The open line parameters of R12 and R105 and the open rates of R11: no rule reads them. -/
opaque latchActive : Bool
/-- `CLK_IDLE` (R105). -/
opaque clkIdle : Bool
/-- `SAMPLE_EDGE`: true for rising (R105). -/
opaque sampleEdgeRising : Bool
/-- `F_HW` (R11). -/
opaque frameRate : Nat
/-- `F_POLL` (R11). -/
opaque pollRate : Nat

end Sys2Proof.Config
end

