-- ==== Sys2Proof/WellFormed.lean ====
section
/-! DEFINITION. Which commands have an encoding: the bounds of the numeric operands (30_encoding.md
R93, R94, R97, R98, R100). -/

namespace Sys2Proof

/-- The operands fit their fields: a pin is 0 to 31, a chip count 0 to 7 (the values the command
itself refuses included, R97), a register number 0 to 63. Every other operand fits by its type. -/
def Instr.wf : Instr → Bool
  | .cfgPins _ _ _ => true
  | .cfgMode _ chips => decide (chips < 8)
  | .start => true
  | .stop => true
  | .attach _ pin => decide (pin < 32)
  | .detach pin => decide (pin < 32)
  | .readValue => true
  | .reconcile _ => true
  | .setPinUsed pin => decide (pin < 32)
  | .getPinsUsed => true
  | .rdreg reg => decide (reg < 64)

end Sys2Proof
end

