-- ==== Sys2Proof/Decode.lean ====
section
/-! DEFINITION. Decoding (30_encoding.md R91 to R104), total on every 40-bit word, and the encoder
written from the same tables. -/

namespace Sys2Proof

/-- `cmd[39:32]` (R91). -/
def opField (w : Command) : BitVec 8 := w.extractLsb' 32 8

/-- Stage 1 of R102: the opcode map of R101; the other 245 values are illegal (R103). -/
def opcodeOf (op : BitVec 8) : Option Opcode :=
  if op = 0x01#8 then some .cfgPins
  else if op = 0x02#8 then some .cfgMode
  else if op = 0x03#8 then some .start
  else if op = 0x04#8 then some .stop
  else if op = 0x10#8 then some .attach
  else if op = 0x11#8 then some .detach
  else if op = 0x12#8 then some .readValue
  else if op = 0x13#8 then some .reconcile
  else if op = 0x14#8 then some .setPinUsed
  else if op = 0x15#8 then some .getPinsUsed
  else if op = 0x20#8 then some .rdreg
  else none

/-- The `match` column of R101. -/
def matchWord : Opcode → Command
  | .cfgPins => 0x0100000000#40
  | .cfgMode => 0x0200000000#40
  | .start => 0x0300000000#40
  | .stop => 0x0400000000#40
  | .attach => 0x1000000000#40
  | .detach => 0x1100000000#40
  | .readValue => 0x1200000000#40
  | .reconcile => 0x1300000000#40
  | .setPinUsed => 0x1400000000#40
  | .getPinsUsed => 0x1500000000#40
  | .rdreg => 0x2000000000#40

/-- The `mask` column of R101: the opcode bits and the reserved bits of the format. -/
def maskWord : Opcode → Command
  | .cfgPins => 0xFFFF000000#40
  | .cfgMode => 0xFFFFFFFEF8#40
  | .start => 0xFFFFFFFFFF#40
  | .stop => 0xFFFFFFFFFF#40
  | .attach => 0xFFFFFF00E0#40
  | .detach => 0xFFFFFFFFE0#40
  | .readValue => 0xFFFFFFFFFF#40
  | .reconcile => 0xFF00000000#40
  | .setPinUsed => 0xFFFFFFFFE0#40
  | .getPinsUsed => 0xFFFFFFFFFF#40
  | .rdreg => 0xFFFFFFFFC0#40

/-- `arg[4:0]` (R93, R94), zero-extended to a natural number (R100). -/
def pinField (w : Command) : Nat := (w.extractLsb' 0 5).toNat

/-- The operands of a word of each opcode, by the formats of R92 to R98 and R100. -/
def operands (w : Command) : Opcode → Instr
  | .cfgPins => .cfgPins (w.extractLsb' 16 8) (w.extractLsb' 8 8) (w.extractLsb' 0 8)
  | .cfgMode => .cfgMode (w.getLsbD 8) (w.extractLsb' 0 3).toNat
  | .start => .start
  | .stop => .stop
  | .attach => .attach (w.extractLsb' 8 8) (pinField w)
  | .detach => .detach (pinField w)
  | .readValue => .readValue
  | .reconcile => .reconcile (w.extractLsb' 0 32)
  | .setPinUsed => .setPinUsed (pinField w)
  | .getPinsUsed => .getPinsUsed
  | .rdreg => .rdreg (w.extractLsb' 0 6).toNat

/-- The two-stage decoder of R102. It reads the word alone: no state changes decoding (R104). -/
def decode (w : Command) : Except DecodeError Instr :=
  match opcodeOf (opField w) with
  | none => .error .illegalOp
  | some o => if w &&& maskWord o = matchWord o then .ok (operands w o) else .error .reservedBits

/-- The status a rejected word is answered with (R102, R262). -/
def DecodeError.status : DecodeError → Status
  | .illegalOp => .illegalOp
  | .reservedBits => .reservedBits

/-- The row of R101 a command belongs to. -/
def Instr.opcode : Instr → Opcode
  | .cfgPins _ _ _ => .cfgPins
  | .cfgMode _ _ => .cfgMode
  | .start => .start
  | .stop => .stop
  | .attach _ _ => .attach
  | .detach _ => .detach
  | .readValue => .readValue
  | .reconcile _ => .reconcile
  | .setPinUsed _ => .setPinUsed
  | .getPinsUsed => .getPinsUsed
  | .rdreg _ => .rdreg

/-- A field of a packed word of `w` bits: the value `v` with its bit 0 at bit `off` and zeros elsewhere. -/
def fieldAt (w off : Nat) {n : Nat} (v : BitVec n) : BitVec w := v.setWidth w <<< off

/-- The operand field `arg[31:0]` of a command, by the formats of R92 to R98; reserved bits are 0. -/
def argWord : Instr → BitVec 32
  | .cfgPins clk latch data => fieldAt 32 16 clk ||| fieldAt 32 8 latch ||| fieldAt 32 0 data
  | .cfgMode shiftIn chips => fieldAt 32 8 (BitVec.ofBool shiftIn) ||| fieldAt 32 0 (BitVec.ofNat 3 chips)
  | .start => 0#32
  | .stop => 0#32
  | .attach sub pin => fieldAt 32 8 sub ||| fieldAt 32 0 (BitVec.ofNat 5 pin)
  | .detach pin => fieldAt 32 0 (BitVec.ofNat 5 pin)
  | .readValue => 0#32
  | .reconcile value => fieldAt 32 0 value
  | .setPinUsed pin => fieldAt 32 0 (BitVec.ofNat 5 pin)
  | .getPinsUsed => 0#32
  | .rdreg reg => fieldAt 32 0 (BitVec.ofNat 6 reg)

/-- The command word of a command (R91): opcode in bits 39:32, operands in bits 31:0. -/
def encode (i : Instr) : Command :=
  matchWord i.opcode ||| fieldAt 40 0 (argWord i)

/-- The command the decoder reads from an instruction given by its bits, numbered as
spec/opcode_table.json numbers them. A command is one 40-bit word (R104): the bits above `nbits`
are 0, and nothing longer than 40 bits is a command. -/
def decodeTableWord (nbits w : Nat) : Option Instr :=
  if nbits ≤ 40 then
    match decode (BitVec.ofNat 40 (w % 2 ^ nbits)) with
    | .ok i => some i
    | .error _ => none
  else none

end Sys2Proof
end

