-- ==== Sys2Proof/Machine/Operands.lean ====
section
/-! DEFINITION. The fields of the registers, the operand quantities computed from state (30_encoding.md
R100), the serial frame and the raw word (R63 to R65, R105 to R107), and the packed words the model
shows (R99, R109, R110). -/

namespace Sys2Proof.Machine

/-! ### Bits of words -/

/-- `zext_32(w[n-1:0])` (R13). -/
def lowBits (n : Nat) (w : Word) : Word := (w.setWidth n).setWidth 32

/-- `w` with bit `i` set; `i` at or above 32 names no bit. -/
def setBit (w : Word) (i : Nat) : Word := w ||| BitVec.twoPow 32 i

/-- `w` with bit `i` cleared. -/
def clearBit (w : Word) (i : Nat) : Word := w &&& ~~~(BitVec.twoPow 32 i)

/-! ### Fields of the configuration registers (R32, R34) -/

/-- `CFG_PINS[23:16]`. -/
def Bus.clkPin (b : Bus) : PinId := b.cfgPins.extractLsb' 16 8

/-- `CFG_PINS[15:8]`. -/
def Bus.latchPin (b : Bus) : PinId := b.cfgPins.extractLsb' 8 8

/-- `CFG_PINS[7:0]`. -/
def Bus.dataPin (b : Bus) : PinId := b.cfgPins.extractLsb' 0 8

/-- The word `{clk, latch, data}` (R32, R232). -/
def packCfgPins (clk latch data : PinId) : BitVec 24 :=
  fieldAt 24 16 clk ||| fieldAt 24 8 latch ||| fieldAt 24 0 data

/-- `NUM_CHIPS = CFG_MODE[2:0]` as a number. -/
def Bus.numChips (b : Bus) : Nat := (b.cfgMode.extractLsb' 0 3).toNat

/-- `USE_SHIFT_IN = CFG_MODE[8]`. -/
def Bus.useShiftIn (b : Bus) : Bool := b.cfgMode.getLsbD 8

/-- The word `{shift_in, 00000, chips}` (R34, R234). -/
def packCfgMode (shiftIn : Bool) (chips : Nat) : BitVec 9 :=
  fieldAt 9 8 (BitVec.ofBool shiftIn) ||| fieldAt 9 0 (BitVec.ofNat 3 chips)

/-- `8*NUM_CHIPS`, the number of meaningful bits (R10, R67). -/
def Bus.wiredBits (b : Bus) : Nat := 8 * b.numChips

/-! ### The callback table (R37) -/

/-- `CB[i]`; there is no entry at or above 32. -/
def Bus.cbAt (b : Bus) (i : Nat) : Option SubId := (b.cb[i]?).join

/-- An entry as `RDREG` shows it: 0 where never written, else `0x100 + s` (R36). -/
def cbWord : Option SubId → Word
  | none => 0#32
  | some s => 0x100#32 + s.setWidth 32

/-- The register `RDREG` returns for each number of R36; `none` for the reserved numbers. -/
def Bus.readReg (b : Bus) (status : Word) (reg : Nat) : Option Word :=
  if reg = 0 then some b.liw
  else if reg = 1 then some b.prev
  else if reg = 2 then some b.interest
  else if reg = 3 then some (b.hi.setWidth 32)
  else if reg = 4 then some b.pinsUsed
  else if reg = 5 then some (b.cfgPins.setWidth 32)
  else if reg = 6 then some (b.cfgMode.setWidth 32)
  else if reg = 7 then some status
  else if reg = 8 then some b.frames
  else if reg = 9 then some b.changes
  else if reg ≤ 31 then none
  else some (cbWord (b.cbAt (reg - 32)))

/-! ### The serial frame and the raw word -/

/-- Stream bit `b_k` of a frame of `n` bits whose snapshot is `snap`: logical pin `n - 1 - k` (R64). -/
def streamBit (n : Nat) (snap : Word) (k : Nat) : Bool := snap.getLsbD (n - 1 - k)

/-- The frame in order of arrival, `b_0` first (R63, R105). -/
def stream (n : Nat) (snap : Word) : List Bool := (List.range n).map (streamBit n snap)

/-- `(sample << 1) | b` (R63). -/
def shiftInBit (acc : Word) (b : Bool) : Word := (acc <<< 1) ||| (BitVec.ofBool b).setWidth 32

/-- The serial assembly of R63 and R151: start at 0, shift every arriving bit in. -/
def assemble (bits : List Bool) : Word := bits.foldl shiftInBit 0#32

/-- What the peripheral writes into `FB` for a frame of `n` bits: the frame left-justified, the
padding below it (R65, R106, R133). -/
def rawWord (n : Nat) (snap pad : Word) : Word := (lowBits n snap <<< (32 - n)) ||| lowBits (32 - n) pad

/-- The right shift that takes the sample out of the raw word (R65, R134). -/
def extractSample (n : Nat) (raw : Word) : Word := raw >>> (32 - n)

/-! ### Packed words and codes -/

/-- The number of a status code (R262). -/
def Status.code : Status → BitVec 4
  | .ok => 0#4
  | .illegalOp => 1#4
  | .reservedBits => 2#4
  | .pinsIncomplete => 3#4
  | .numChips => 4#4
  | .running => 5#4
  | .notConfigured => 6#4
  | .pinRange => 7#4
  | .chipsConflict => 8#4
  | .reg => 9#4
  | .notRunning => 10#4

/-- The response word: status in bits 35:32, data in bits 31:0 (R99). -/
def responseWord (st : Status) (data : Word) : Response :=
  fieldAt 36 32 (Status.code st) ||| fieldAt 36 0 data

/-- The 16-bit edge-event record (R110). -/
def eventWord (e : Event) : BitVec 16 :=
  fieldAt 16 8 e.sub ||| fieldAt 16 5 (BitVec.ofBool e.lvl) ||| fieldAt 16 0 (BitVec.ofNat 5 e.pin)

/-- The number of a controller state class (R43, R108). -/
def sysStateCode : SysState → Nat
  | .other => 0
  | .alarmState => 1
  | .configAlarm => 2
  | .homing => 3

/-- The direction a code stands for (R108). -/
def directionOf (code : Nat) : Direction :=
  if code = 0 then .pos else if code = 1 then .neg else if code = 2 then .both else .invalid code

/-- `dir in {POS, NEG, BOTH}` (R202). -/
def directionValid : Direction → Bool
  | .pos => true
  | .neg => true
  | .both => true
  | .invalid _ => false

/-- `dir in {POS, BOTH}`: the endpoint writes `POS_MASK` (R206 line A2). -/
def writesPos : Direction → Bool
  | .pos => true
  | .neg => false
  | .both => true
  | .invalid _ => false

/-- `dir in {NEG, BOTH}`: the endpoint writes `NEG_MASK` (R206 line A3). -/
def writesNeg : Direction → Bool
  | .pos => false
  | .neg => true
  | .both => true
  | .invalid _ => false

/-- The aggregate bit position `axis + 16*motor` (R109). -/
def aggPosition (axis motor : Nat) : Nat := axis + 16 * motor

/-- `1 << (axis + 16*motor)` (R109, R202). -/
def aggMask (axis motor : Nat) : Word := BitVec.twoPow 32 (aggPosition axis motor)

/-- `(1 << a) | (1 << (a + 16))` (R208). -/
def dualAxisMask (axis : Nat) : Word := BitVec.twoPow 32 axis ||| BitVec.twoPow 32 (axis + 16)

/-! ### The endpoint table and the shared words -/

/-- `EP[sub]`. -/
def Collab.endpoint (c : Collab) (sub : SubId) : Option Endpoint := (c.ep[sub.toNat]?).join

/-- A shared word as `ENV` reads it, `ALARM` zero-extended (R211). -/
def Collab.shared (c : Collab) : SharedReg → Word
  | .posMask => c.posMask
  | .negMask => c.negMask
  | .limitMask => c.limitMask
  | .alarm => c.alarm.setWidth 32

end Sys2Proof.Machine
end

