-- ==== Sys2Proof/Machine/Flags.lean ====
section
/-! DEFINITION. The flags and the state conditions the operations test: `CONFIGURED` and `STATUS`
(R33), which sampler step is enabled (R135, R152), whether the alarm path is armed (R206). No
operation of the block sets a flag as a side effect of arithmetic (R28). -/

namespace Sys2Proof.Machine

/-- `CONFIGURED`: none of the three pin identifiers is `0xFF` (R33). -/
def Bus.configured (b : Bus) : Bool :=
  b.clkPin != Config.pinNotSet && b.latchPin != Config.pinNotSet && b.dataPin != Config.pinNotSet

/-- `STATUS`: `RUN` in bit 0, `CONFIGURED` in bit 1, 0 above (R33). -/
def Bus.statusWord (b : Bus) : Word :=
  fieldAt 32 1 (BitVec.ofBool b.configured) ||| fieldAt 32 0 (BitVec.ofBool b.run)

/-- The number of the three identifiers that are set (R232). -/
def pinsSet (clk latch data : PinId) : Nat :=
  (if clk = Config.pinNotSet then 0 else 1) + (if latch = Config.pinNotSet then 0 else 1) +
    (if data = Config.pinNotSet then 0 else 1)

/-- `FRAME_DONE` is enabled: `RUN = 1` and `USE_SHIFT_IN = 0` (R135, R266). -/
def Bus.frameEnabled (b : Bus) : Bool := b.run && !b.useShiftIn

/-- `POLL_CYCLE` is enabled: `RUN = 1` and `USE_SHIFT_IN = 1` (R152, R269). -/
def Bus.pollEnabled (b : Bus) : Bool := b.run && b.useShiftIn

/-- The controller states in which no alarm is raised (R206 line A4). -/
def alarmSuppressed : SysState → Bool
  | .other => false
  | .alarmState => true
  | .configAlarm => true
  | .homing => true

/-- What line A4 of the edge handler reads, `SYS_STATE` and `HARD_LIMITS` in one action (R206). -/
def Collab.alarmArmed (c : Collab) : Bool := !alarmSuppressed c.sysState && c.hardLimits

end Sys2Proof.Machine
end

