-- ==== Sys2Proof/Machine/Ops.lean ====
section
/-! DEFINITION. The named operations over registers, masks and the port. A refusal, the block's only
synchronous exception (R261), is taken by the one operation `refuse`; `accept` ends an accepted
command. -/

namespace Sys2Proof.Machine

/-! ### The parts of the state -/

/-- The block's registers become `b`. -/
def State.withBus (s : State) (b : Bus) : State := { s with bus := b }

/-- The collaborators' state becomes `c`. -/
def State.withCol (s : State) (c : Collab) : State := { s with col := c }

/-- `EVENTS <- EVENTS ++ [e]` (R172). -/
def State.recordEvent (s : State) (e : Event) : State := { s with events := s.events ++ [e] }

/-- A LimitEndpoint operation ends with outcome `o` (R263). -/
def State.recordLe (s : State) (o : LeOutcome) : State := { s with leOutcomes := s.leOutcomes ++ [o] }

/-- The inputs still to come become `l`. -/
def State.withInputs (s : State) (l : List Input) : State := { s with inputs := l }

/-! ### The command port (R90, R99, R261) -/

/-- One response word goes out on the port, and the command it answers leaves the port: the block
answers each command before it accepts the next (R90). -/
def State.respond (s : State) (st : Status) (data : Word) : State :=
  { s with responses := s.responses ++ [responseWord st data], inputs := s.inputs.tail }

/-- `raise Refuse(code)` (R15, R261): the response names the cause, `data` is 0, and no state of the
block or of its collaborators changes; nothing is saved and control goes nowhere. -/
def refuse (st : Status) (s : State) : State := s.respond st 0#32

/-- `return v` (R15): the response is `OK v`; the next command is decoded as after any other. -/
def accept (data : Word) (s : State) : State := s.respond .ok data

/-- How a command on the block's registers ends: accepted with new registers and data, or refused. -/
def answer (r : Except Status (Bus × Word)) (s : State) : Host.Outcome State Fault Refusal :=
  match r with
  | .ok (b, data) => .next (accept data (s.withBus b))
  | .error st => .next (refuse st s)

/-- A computation that may stop in a fault, as an outcome of a step. -/
def outcomeOf (r : Except Fault State) : Host.Outcome State Fault Refusal :=
  match r with
  | .ok s => .next s
  | .error f => .fault f

/-! ### Writes of the block's registers, one per rule that makes them -/

/-- `LIW <- nv` (R172). -/
def Bus.commit (b : Bus) (nv : Word) : Bus := { b with liw := nv }

/-- `PREV <- nv` (R172). -/
def Bus.catchUp (b : Bus) (nv : Word) : Bus := { b with prev := nv }

/-- The peripheral writes `FB` (R133). -/
def Bus.storeFrame (b : Bus) (raw : Word) : Bus := { b with fb := raw }

/-- `FRAMES <- FRAMES + 1` modulo 2^32 (R35, R80). -/
def Bus.countFrame (b : Bus) : Bus := { b with frames := b.frames + 1#32 }

/-- `CHANGES <- CHANGES + 1` modulo 2^32 (R35, R80). -/
def Bus.countChange (b : Bus) : Bus := { b with changes := b.changes + 1#32 }

/-- `RUN <- r` (R236, R237). -/
def Bus.setRun (b : Bus) (r : Bool) : Bus := { b with run := r }

/-- `CFG_PINS <- w` (R232). -/
def Bus.setCfgPins (b : Bus) (w : BitVec 24) : Bus := { b with cfgPins := w }

/-- `CFG_MODE <- w` (R234). -/
def Bus.setCfgMode (b : Bus) (w : BitVec 9) : Bus := { b with cfgMode := w }

/-- `PINS_USED[pin] <- 1` (R238). -/
def Bus.markUsed (b : Bus) (pin : Nat) : Bus := { b with pinsUsed := setBit b.pinsUsed pin }

/-- `HI` after an attach of `pin`: `max(HI, pin + 1)`, in its 6 bits (R30, R166, R167). -/
def raisedHi (hi : BitVec 6) (pin : Nat) : BitVec 6 := BitVec.ofNat 6 (max hi.toNat (pin + 1))

/-- The writes of an accepted `ATTACH` (R166). -/
def Bus.subscribe (b : Bus) (sub : SubId) (pin : Nat) : Bus :=
  { b with
    cb := b.cb.setIfInBounds pin (some sub)
    hi := raisedHi b.hi pin
    interest := setBit b.interest pin }

/-- `INTEREST[pin] <- 0` (R168); `CB` and `HI` stay. -/
def Bus.unsubscribe (b : Bus) (pin : Nat) : Bus := { b with interest := clearBit b.interest pin }

/-- `ATTACH` with its range check (R166), as the command and `LE_INITIALIZE` both issue it. -/
def attachBus (sub : SubId) (pin : Nat) (b : Bus) : Except Status Bus :=
  if b.wiredBits ≤ pin then .error .pinRange else .ok (b.subscribe sub pin)

/-! ### Writes of the collaborators' words (R41, R77, R211, R212) -/

/-- `atomic { M <- M | m }` when the level is 1, `atomic { M <- M & ~m }` when it is 0 (R77, R206). -/
def maskWrite (lvl : Bool) (m w : Word) : Word := if lvl then w ||| m else w &&& ~~~m

/-- A new `POS_MASK`. -/
def Collab.setPosMask (c : Collab) (w : Word) : Collab := { c with posMask := w }

/-- A new `NEG_MASK`. -/
def Collab.setNegMask (c : Collab) (w : Word) : Collab := { c with negMask := w }

/-- `LIMIT_MASK <- LIMIT_MASK | m` (R204). -/
def Collab.orLimitMask (c : Collab) (m : Word) : Collab := { c with limitMask := c.limitMask ||| m }

/-- A new `ALARM`. -/
def Collab.setAlarm (c : Collab) (a : Alarm) : Collab := { c with alarm := a }

/-- A new `SYS_STATE`. -/
def Collab.setSysState (c : Collab) (x : SysState) : Collab := { c with sysState := x }

/-- A new `HARD_LIMITS`. -/
def Collab.setHardLimits (c : Collab) (b : Bool) : Collab := { c with hardLimits := b }

/-- `EStop()`: the model records the call (R212). -/
def Collab.eStop (c : Collab) : Collab := { c with estops := c.estops + 1 }

/-- `EP[sub] <- e`. -/
def Collab.setEndpoint (c : Collab) (sub : SubId) (e : Endpoint) : Collab :=
  { c with ep := c.ep.setIfInBounds sub.toNat (some e) }

/-- `ENV` reads a shared word (R211). -/
def Collab.recordRead (c : Collab) (r : SharedReg) : Collab :=
  { c with envReads := c.envReads ++ [(r, c.shared r)] }

/-- The environment's choices for the coming atomic actions become `l`. -/
def Collab.setPreempts (c : Collab) (l : List (List EnvStep)) : Collab := { c with preempts := l }

/-- A free value has been drawn. -/
def Collab.draw (c : Collab) : Collab := { c with draws := c.draws + 1 }

/-- `CAS(ALARM, NONE, cause)` without what depends on it (R77): the cause is recorded exactly when
no cause is. -/
def Collab.casAlarm (c : Collab) (cause : Alarm) : Collab :=
  if c.alarm = Config.alarmNone then c.setAlarm cause else c

end Sys2Proof.Machine
end

