-- ==== Sys2Proof/Machine/Control.lean ====
section
/-! DEFINITION. Configuration, control and register access: `CFG_PINS`, `CFG_MODE`, `START`, `STOP`,
`SET_PIN_USED`, `GET_PINS_USED`, `RDREG` (44_config_control.md). The checks stand in the order of
R271. -/

namespace Sys2Proof.Machine

/-- The checks and the write of `CFG_PINS` (R232). -/
def cfgPinsBus (clk latch data : PinId) (b : Bus) : Except Status (Bus × Word) :=
  if b.run then .error .running
  else if pinsSet clk latch data = 1 ∨ pinsSet clk latch data = 2 then .error .pinsIncomplete
  else .ok (b.setCfgPins (packCfgPins clk latch data), 0#32)

/-- `CFG_PINS clk, latch, data` (R232). -/
def execCfgPins (clk latch data : PinId) (s : State) : Host.Outcome State Fault Refusal :=
  answer (cfgPinsBus clk latch data s.bus) s

/-- The checks and the write of `CFG_MODE` (R234). -/
def cfgModeBus (shiftIn : Bool) (chips : Nat) (b : Bus) : Except Status (Bus × Word) :=
  if b.run then .error .running
  else if chips < 1 ∨ 4 < chips then .error .numChips
  else if 8 * chips < b.hi.toNat then .error .chipsConflict
  else .ok (b.setCfgMode (packCfgMode shiftIn chips), 0#32)

/-- `CFG_MODE shift_in, chips` (R234). -/
def execCfgMode (shiftIn : Bool) (chips : Nat) (s : State) : Host.Outcome State Fault Refusal :=
  answer (cfgModeBus shiftIn chips s.bus) s

/-- `START` (R236): nothing is reset, `PINS_USED` is not consulted. -/
def execStart (s : State) : Host.Outcome State Fault Refusal :=
  answer
    (if s.bus.run then .error .running
     else if s.bus.configured then .ok (s.bus.setRun true, 0#32)
     else .error .notConfigured) s

/-- `STOP` (R237): an acquisition in flight delivers nothing, all other state is kept. -/
def execStop (s : State) : Host.Outcome State Fault Refusal :=
  answer (if s.bus.run then .ok (s.bus.setRun false, 0#32) else .error .notRunning) s

/-- `SET_PIN_USED pin` (R238): never refused. -/
def execSetPinUsed (pin : Nat) (s : State) : Host.Outcome State Fault Refusal :=
  answer (.ok (s.bus.markUsed pin, 0#32)) s

/-- `GET_PINS_USED` (R239). -/
def execGetPinsUsed (s : State) : Host.Outcome State Fault Refusal :=
  answer (.ok (s.bus, s.bus.pinsUsed)) s

/-- The register read or its refusal (R36, R240). -/
def rdregBus (reg : Nat) (b : Bus) : Except Status (Bus × Word) :=
  match b.readReg b.statusWord reg with
  | some data => .ok (b, data)
  | none => .error .reg

/-- `RDREG reg` (R240). -/
def execRdreg (reg : Nat) (s : State) : Host.Outcome State Fault Refusal :=
  answer (rdregBus reg s.bus) s

end Sys2Proof.Machine
end

