-- ==== Sys2Proof/Machine/LimitEndpoint.lean ====
section
/-! DEFINITION. The reference subscriber LimitEndpoint (43_limit_endpoint.md), the native pins and the
`ENV` steps. Its operations are steps of the environment; they reach the block only through `ATTACH`
and `DETACH`. -/

namespace Sys2Proof.Machine

/-! ### The edge handler (R205, R206)

`slot` stands wherever another agent may act between two atomic actions (R72): it is the identity
in interrupt context and `preemptSlot` in task context. -/

/-- Line A2 (R206). -/
def leWritePos (ep : Endpoint) (lvl : Bool) (c : Collab) : Collab :=
  if writesPos ep.dir then c.setPosMask (maskWrite lvl ep.bitmask c.posMask) else c

/-- Line A3 (R206). -/
def leWriteNeg (ep : Endpoint) (lvl : Bool) (c : Collab) : Collab :=
  if writesNeg ep.dir then c.setNegMask (maskWrite lvl ep.bitmask c.negMask) else c

/-- Line A5 (R206): the compare-and-swap and, when it succeeds, the emergency stop, in one action. -/
def leRaise (c : Collab) : Collab :=
  if c.alarm = Config.alarmNone then (c.setAlarm Config.alarmHardLimit).eStop else c

/-- Lines A2 to A5 with the level that A1 read (R206). -/
def leOnLevel (slot : Collab → Collab) (ep : Endpoint) (lvl : Bool) (c : Collab) : Collab :=
  if ep.participates then
    let c := leWriteNeg ep lvl (slot (leWritePos ep lvl (slot c)))
    if lvl then
      let c := slot c
      if c.alarmArmed then leRaise (slot c) else c
    else c
  else c

/-- `ReadLevel` (R205) for a handler that `DISPATCH` invokes, and the state after the read. A bus
source reads `LIW`. For a native source R205 gives a level only inside a `NATIVE_CHANGE`; here the
level is a free value (notes/assumptions/2.md, DESIGN CHOICE). -/
def readLevel (liw : Word) (source : Source) (c : Collab) : Bool × Collab :=
  match source with
  | .bus p => (liw.getLsbD p.val, c)
  | .native _ => (Config.freeNativeLevel c.draws, c.draw)

/-- `LE_ON_EDGE` as `DISPATCH` invokes it (R206): line A1, then the rest. -/
def leOnEdge (slot : Collab → Collab) (liw : Word) (ep : Endpoint) (c : Collab) : Collab :=
  let r := readLevel liw ep.source (slot c)
  leOnLevel slot ep r.1 r.2

/-! ### `NATIVE_CHANGE` and the `ENV` steps (R210, R211) -/

/-- The handler of one endpoint under `NATIVE_CHANGE n level`: it runs exactly when the endpoint is
bound to pin `n` and attached, and it reads `level` (R210). -/
def nativeChangeOne (n : PinId) (level : Bool) (c : Collab) (sub : SubId) : Collab :=
  match c.endpoint sub with
  | some ep => if ep.source = .native n ∧ ep.attached = true then leOnLevel id ep level c else c
  | none => c

/-- Every subscriber identifier, in ascending order. -/
def allSubs : List SubId := (List.range 256).map (BitVec.ofNat 8)

/-- `NATIVE_CHANGE n level`, one atomic action (R210). -/
def nativeChange (n : PinId) (level : Bool) (c : Collab) : Collab :=
  allSubs.foldl (nativeChangeOne n level) c

/-- One atomic action of `ENV` or of a native pin (R72, R210, R211). `ENV` records another alarm cause
only where none is recorded (R42, 93_implementation_defined.md U4). -/
def envStep (e : EnvStep) (c : Collab) : Collab :=
  match e with
  | .nativeChange n level => nativeChange n level c
  | .setSysState x => c.setSysState x
  | .setHardLimits b => c.setHardLimits b
  | .clearAlarm => c.setAlarm Config.alarmNone
  | .latchAlarm cause => c.casAlarm cause
  | .read r => c.recordRead r

/-- Several of them, one after the other. -/
def envSteps (es : List EnvStep) (c : Collab) : Collab := es.foldl (fun c e => envStep e c) c

/-- The point before an atomic action of a task-context reconciliation: the steps the environment
has chosen for it occur now (R73). -/
def preemptSlot (c : Collab) : Collab :=
  match c.preempts with
  | [] => c
  | es :: rest => envSteps es (c.setPreempts rest)

/-! ### The handler of a subscriber (R175) -/

/-- The writes of one invocation of a supplied handler: atomic bit operations on the masks, a
compare-and-swap on `ALARM`, perhaps an emergency stop (R77, R181). -/
def applyEffect (e : Config.HandlerEffect) (c : Collab) : Collab :=
  let c := c.setPosMask (maskWrite true e.setPos (maskWrite false e.clearPos c.posMask))
  let c := c.setNegMask (maskWrite true e.setNeg (maskWrite false e.clearNeg c.negMask))
  let c := c.casAlarm e.cause
  if e.estop then c.eStop else c

/-- The handler of every subscriber identifier (R175): `LE_ON_EDGE` where an endpoint is constructed,
the supplied handler where there is one, else one that does nothing. -/
def runHandler (slot : Collab → Collab) (liw : Word) (sub : SubId) (pin : Nat) (lvl : Bool)
    (c : Collab) : Collab :=
  match c.endpoint sub with
  | some ep => leOnEdge slot liw ep c
  | none =>
    if c.supplied.contains sub then
      let c := slot c
      applyEffect (Config.suppliedHandler sub pin lvl liw c) c.draw
    else c

/-! ### The operations of a LimitEndpoint (R202, R204, R208, R209) -/

/-- The record `LE_CONSTRUCT` makes (R202, R203). -/
def newEndpoint (axis motor dir : Nat) (source : Source) : Endpoint where
  axis := axis
  motor := motor
  dir := directionOf dir
  bitmask := aggMask axis motor
  source := source
  participates := directionValid (directionOf dir)
  attached := false

/-- `LE_CONSTRUCT` (R202): out of range it changes nothing; an invalid direction is reported and the
inert record kept (R203). -/
def leConstruct (sub : SubId) (axis motor dir : Nat) (source : Source) (s : State) : State :=
  if Config.maxAxes ≤ axis ∨ 1 < motor then s.recordLe .errRange
  else
    (s.withCol (s.col.setEndpoint sub (newEndpoint axis motor dir source))).recordLe
      (if directionValid (directionOf dir) then .ok else .errDirection)

/-- `EP[sub].attached <- a`. -/
def setAttached (ep : Endpoint) (a : Bool) : Endpoint := { ep with attached := a }

/-- `LE_INITIALIZE` (R204). The configuration of a native pin changes no state of the model (R204,
93_implementation_defined.md U11). -/
def leInitialize (sub : SubId) (s : State) : Except Fault State :=
  match s.col.endpoint sub with
  | none => .error .noEndpoint
  | some ep =>
    if ep.participates then
      let bound : Except Status Bus :=
        match ep.source with
        | .bus p => attachBus sub p.val s.bus
        | .native _ => .ok s.bus
      match bound with
      | .error st => .ok (s.recordLe (.errAttach st))
      | .ok b =>
        .ok (((s.withBus b).withCol
          ((s.col.setEndpoint sub (setAttached ep true)).orLimitMask ep.bitmask)).recordLe .ok)
    else .ok (s.recordLe .errDirection)

/-- `LE_MAKE_DUAL_AXIS_MASK` (R208). -/
def leMakeDualAxisMask (sub : SubId) (s : State) : Except Fault State :=
  match s.col.endpoint sub with
  | none => .error .noEndpoint
  | some ep =>
    .ok ((s.withCol (s.col.setEndpoint sub { ep with bitmask := dualAxisMask ep.axis })).recordLe .ok)

/-- `LE_TEARDOWN` (R209). -/
def leTeardown (sub : SubId) (s : State) : Except Fault State :=
  match s.col.endpoint sub with
  | none => .error .noEndpoint
  | some ep =>
    let b := match ep.source with
      | .bus p => s.bus.unsubscribe p.val
      | .native _ => s.bus
    .ok (((s.withBus b).withCol (s.col.setEndpoint sub (setAttached ep false))).recordLe .ok)

end Sys2Proof.Machine
end

