-- ==== Sys2Proof/Machine/InputBus.lean ====
section
/-! DEFINITION. The input bus: edge detection, callback dispatch and the commands `ATTACH`, `DETACH`,
`READ_VALUE`, `RECONCILE` (42_input_bus.md). -/

namespace Sys2Proof.Machine

/-- `EDGE`: the 32 comparators (R173). -/
def edgeDiff (prev nv : Word) : Word := prev ^^^ nv

/-- Callback entry for pin `i` (R175, R273): the event is recorded, then the handler of the subscriber
runs to its end. The block saves and restores nothing (R274, R275). -/
def invoke (slot : Collab → Collab) (nv : Word) (sub : SubId) (i : Nat) (s : State) : State :=
  let s := s.recordEvent ⟨sub, i, nv.getLsbD i⟩
  s.withCol (runHandler slot s.bus.liw sub i (nv.getLsbD i) s.col)

/-- `DISPATCH`: the scan over the given pins in order (R172, R174). The handlers cannot change
`INTEREST`, `HI` or `CB` (R181): they have no way to them. -/
def dispatch (slot : Collab → Collab) (nv diff : Word) : List Nat → State → Except Fault State
  | [], s => .ok s
  | i :: rest, s =>
    if s.bus.interest.getLsbD i && diff.getLsbD i then
      match s.bus.cbAt i with
      | none => .error .noSubscriber
      | some sub => dispatch slot nv diff rest (invoke slot nv sub i s)
    else dispatch slot nv diff rest s

/-- `Reconcile(nv)` (R172): commit `LIW`, dispatch the changed interested pins below `HI` in ascending
order, let `PREV` catch up. -/
def reconcile (slot : Collab → Collab) (nv : Word) (s : State) : Except Fault State :=
  let diff := edgeDiff s.bus.prev nv
  let s := s.withBus (s.bus.commit nv)
  match dispatch slot nv diff (List.range s.bus.hi.toNat) s with
  | .ok s => .ok (s.withBus (s.bus.catchUp nv))
  | .error f => .error f

/-! ### Commands -/

/-- `ATTACH sub, pin` (R166). -/
def execAttach (sub : SubId) (pin : Nat) (s : State) : Host.Outcome State Fault Refusal :=
  answer ((attachBus sub pin s.bus).map fun b => (b, 0#32)) s

/-- `DETACH pin` (R168): never refused. -/
def execDetach (pin : Nat) (s : State) : Host.Outcome State Fault Refusal :=
  answer (.ok (s.bus.unsubscribe pin, 0#32)) s

/-- `READ_VALUE` (R169). -/
def execReadValue (s : State) : Host.Outcome State Fault Refusal :=
  answer (.ok (s.bus, s.bus.liw)) s

/-- `RECONCILE value` (R170), in task context: only while no sampler is started. -/
def execReconcile (value : Word) (s : State) : Host.Outcome State Fault Refusal :=
  if s.bus.run then .next (refuse .running s)
  else outcomeOf ((reconcile preemptSlot value s).map (accept 0#32))

end Sys2Proof.Machine
end

