-- ==== Sys2Proof/Machine/Samplers.lean ====
section
/-! DEFINITION. The two producers of samples: `SAMPLER` with `FRAME_DONE` (40_hardware_sampler.md) and
`POLLER` with `POLL_CYCLE` (41_polling_sampler.md), and the change filter they share. -/

namespace Sys2Proof.Machine

/-- What both samplers do with a completed sample: count the frame, and forward the sample to the bus
when it differs from `LIW`, the previously delivered value (R26, R135, R136, R152). -/
def deliver (slot : Collab → Collab) (sample : Word) (s : State) : Except Fault State :=
  let s := s.withBus s.bus.countFrame
  if sample = s.bus.liw then .ok s
  else reconcile slot sample (s.withBus s.bus.countChange)

/-- `FRAME_DONE(snap, pad)` (R135), in interrupt context: nothing falls between its actions. -/
def frameDone (snap pad : Word) (s : State) : Except Fault State :=
  let n := s.bus.wiredBits
  let s := s.withBus (s.bus.storeFrame (rawWord n snap pad))
  deliver id (extractSample n s.bus.fb) s

/-- `POLL_CYCLE(snap)` (R152), in task context: the frame is assembled bit by bit (R151). -/
def pollCycle (snap : Word) (s : State) : Except Fault State :=
  deliver preemptSlot (assemble (stream s.bus.wiredBits snap)) s

end Sys2Proof.Machine
end

