-- ==== Sys2Proof/Machine/Agents.lean ====
section
/-! DEFINITION. The steps of the agents other than `HOST` (R17, R112, R118), and which input comes
next. -/

namespace Sys2Proof.Machine

/-- A step of an agent. A sampler step offered while it is not enabled (R135, R152) is not taken:
nothing is acquired and nothing changes. -/
def agentStep (a : AgentStep) (s : State) : Host.Outcome State Fault Refusal :=
  match a with
  | .frameDone snap pad => if s.bus.frameEnabled then outcomeOf (frameDone snap pad s) else .next s
  | .pollCycle snap => if s.bus.pollEnabled then outcomeOf (pollCycle snap s) else .next s
  | .leConstruct sub axis motor dir source => .next (leConstruct sub axis motor dir source s)
  | .leInitialize sub => outcomeOf (leInitialize sub s)
  | .leMakeDualAxisMask sub => outcomeOf (leMakeDualAxisMask sub s)
  | .leTeardown sub => outcomeOf (leTeardown sub s)
  | .env e => .next (s.withCol (envStep e s.col))

/-- The word the decoder rejects is answered with its status and changes nothing (R102, R261). -/
def rejectWord (e : DecodeError) (s : State) : Host.Outcome State Fault Refusal :=
  .next (refuse e.status s)

/-- `HOST` offers a command word on the port: it is the next input. -/
def offerCommand (w : Command) (s : State) : State := s.withInputs (.command w :: s.inputs)

end Sys2Proof.Machine
end

