-- ==== Sys2Proof/Machine/Dispatch.lean ====
section
/-! DEFINITION. The meaning of every host command, one arm per row of the opcode table (R101). -/

namespace Sys2Proof.Machine

def exec (i : Instr) (s : State) : Host.Outcome State Fault Refusal :=
  match i with
  | .cfgPins clk latch data => Sys2Proof.Machine.execCfgPins clk latch data s
  | .cfgMode shiftIn chips => Sys2Proof.Machine.execCfgMode shiftIn chips s
  | .start => Sys2Proof.Machine.execStart s
  | .stop => Sys2Proof.Machine.execStop s
  | .attach sub pin => Sys2Proof.Machine.execAttach sub pin s
  | .detach pin => Sys2Proof.Machine.execDetach pin s
  | .readValue => Sys2Proof.Machine.execReadValue s
  | .reconcile value => Sys2Proof.Machine.execReconcile value s
  | .setPinUsed pin => Sys2Proof.Machine.execSetPinUsed pin s
  | .getPinsUsed => Sys2Proof.Machine.execGetPinsUsed s
  | .rdreg reg => Sys2Proof.Machine.execRdreg reg s

end Sys2Proof.Machine
end

