-- ==== Sys2Proof/Machine/Step.lean ====
section
/-! DEFINITION. One step: the next input is taken, a command is decoded and run, a step of another agent
is taken (R17, R72, R90, R102). With no input the block is idle (R47, R289, R300). -/

namespace Sys2Proof.Machine

/-- One step of the machine. A command leaves the port with its response (R90); the step of another
agent is taken off the inputs here. -/
def step (s : State) : Host.Outcome State Fault Refusal :=
  match s.inputs with
  | [] => .next s
  | .command w :: _ =>
    match decode w with
    | .ok i => exec i s
    | .error e => rejectWord e s
  | .agent a :: rest => agentStep a (s.withInputs rest)

/-- `s` with the command of the table's bits `w` offered on the port, before every other input. -/
def State.withFetchWord (s : State) (nbits w : Nat) : State :=
  offerCommand (BitVec.ofNat 40 (w % 2 ^ nbits)) s

end Sys2Proof.Machine
end

