-- ==== Sys2Proof/Safety.lean ====
section
/-! DEFINITION. What counts as a good state and as the result the spec asks for, in the terms the
statements use: the invariants of 10_state.md R38 and R44, the port's answer, the events a
reconciliation owes. Written from the rules, apart from the functions the machine runs. -/

namespace Sys2Proof.Machine

/-- The invariants R38 (a) to (g) of the block, with the reserved bits of `CFG_MODE` (R34). -/
structure BusInv (b : Bus) : Prop where
  /-- R38 (a). -/
  chips : 1 ≤ b.numChips ∧ b.numChips ≤ 4
  /-- R34: `CFG_MODE[7:3] = 0`. -/
  modeReserved : b.cfgMode.extractLsb' 3 5 = 0#5
  /-- R38 (b). -/
  hiBound : b.hi.toNat ≤ 8 * b.numChips
  /-- R38 (c). -/
  interestBelow : ∀ i, b.interest.getLsbD i = true → i < b.hi.toNat
  /-- R38 (d). -/
  subscribed : ∀ i, b.interest.getLsbD i = true → ∃ sub, b.cbAt i = some sub
  /-- R38 (e). -/
  prevIsLiw : b.prev = b.liw
  /-- R38 (f). -/
  pinsLegal : (b.clkPin = 0xFF#8 ∧ b.latchPin = 0xFF#8 ∧ b.dataPin = 0xFF#8) ∨
    (b.clkPin ≠ 0xFF#8 ∧ b.latchPin ≠ 0xFF#8 ∧ b.dataPin ≠ 0xFF#8)
  /-- R38 (g). -/
  runConfigured : b.run = true → b.configured = true

/-- What every constructed endpoint satisfies (R44, R202, R203, R208). -/
structure EndpointInv (ep : Endpoint) : Prop where
  axisInRange : ep.axis < Config.maxAxes
  motorInRange : ep.motor ≤ 1
  participatesIff : ep.participates = directionValid ep.dir
  bitmaskIs : ep.bitmask = aggMask ep.axis ep.motor ∨ ep.bitmask = dualAxisMask ep.axis
  attachedParticipates : ep.attached = true → ep.participates = true

/-- Every constructed endpoint is as R44 says. -/
def CollabInv (c : Collab) : Prop := ∀ sub ep, c.endpoint sub = some ep → EndpointInv ep

/-- The invariant of the machine. -/
structure Inv (s : State) : Prop where
  bus : BusInv s.bus
  col : CollabInv s.col

/-- The state with one response word, `status` in bits 35:32 and `data` in bits 31:0 (R99), given to
the command that was at the port. -/
def reply (status : BitVec 4) (data : Word) (s : State) : State :=
  { s with responses := s.responses ++ [fieldAt 36 32 status ||| fieldAt 36 0 data], inputs := s.inputs.tail }

/-- The pins one reconciliation of `nv` dispatches, ascending: below `HI`, interested, changed
(R174). -/
def owedPins (b : Bus) (nv : Word) : List Nat :=
  (List.range b.hi.toNat).filter fun i =>
    b.interest.getLsbD i && (b.prev.getLsbD i != nv.getLsbD i)

/-- The records of `EVENTS` one reconciliation of `nv` owes (R172, R174). -/
def owedEvents (b : Bus) (nv : Word) : List Event :=
  (owedPins b nv).filterMap fun i => (b.cbAt i).map fun sub => ⟨sub, i, nv.getLsbD i⟩

/-- The collaborators' state once the handlers of the events `es` have run, in order, for the delivered
word `nv` (R172, R175). -/
def handled (slot : Collab → Collab) (nv : Word) (es : List Event) (c : Collab) : Collab :=
  es.foldl (fun c e => runHandler slot nv e.sub e.pin e.lvl c) c

/-- The context a handler runs in from the state `c` (R72, R73): interrupt context, where nothing falls
between its actions, or task context, where every step the environment has chosen is one of those
`allowed`. -/
def InContext (allowed : EnvStep → Prop) (slot : Collab → Collab) (c : Collab) : Prop :=
  slot = id ∨ slot = preemptSlot ∧ ∀ es ∈ c.preempts, ∀ e ∈ es, allowed e

/-- The input by which the active producer delivers the levels `v` (R26, R171): the started sampler's
step, with padding `pad`, or the host's `RECONCILE` while no sampler is started. -/
def producerInput (b : Bus) (v pad : Word) : Input :=
  if b.run then
    if b.useShiftIn then .agent (.pollCycle v) else .agent (.frameDone v pad)
  else .command (encode (.reconcile v))

/-- The word that is delivered then: a sampler sees the wired bits alone (R107, R170). -/
def deliveredWord (b : Bus) (v : Word) : Word := if b.run then lowBits (8 * b.numChips) v else v

/-- One record, at the new level, per flip of bit `i` along the words delivered after `prev` (R176). -/
def flipEvents (i : Nat) (sub : SubId) : Word → List Word → List Event
  | _, [] => []
  | prev, v :: vs =>
    if prev.getLsbD i = v.getLsbD i then flipEvents i sub v vs
    else ⟨sub, i, v.getLsbD i⟩ :: flipEvents i sub v vs

/-- The recorded events for pin `i`, in order. -/
def eventsFor (i : Nat) (es : List Event) : List Event := es.filter fun e => e.pin == i

end Sys2Proof.Machine
end

