-- ==== Sys2Proof/Certificates/Slice0/Obligations.lean ====
section
/-! DEFINITION. The statements for the provers: what the rules of spec/ say the block, its commands and
the agents around it do. A next state is written out, so each result is also a frame. -/

open Sys2Proof Sys2Proof.Machine

/-! ### Reset, decoding, the port -/

/-- R47 (values: the spec's decision D5): the table, `FB` left out because it is unspecified; the block
is idle, neither sampler step is enabled. -/
def Obligations.ResetMatchesTable : Prop :=
  State.reset.bus.liw = 0#32 ∧ State.reset.bus.prev = 0#32 ∧ State.reset.bus.run = false ∧
  State.reset.bus.interest = 0#32 ∧ State.reset.bus.hi = 0#6 ∧ State.reset.bus.pinsUsed = 0#32 ∧
  State.reset.bus.cfgPins = 0xFFFFFF#24 ∧ State.reset.bus.cfgMode = 0x001#9 ∧
  State.reset.bus.useShiftIn = false ∧ State.reset.bus.numChips = 1 ∧
  State.reset.bus.frames = 0#32 ∧ State.reset.bus.changes = 0#32 ∧
  (∀ i, i < 32 → State.reset.bus.cbAt i = none) ∧
  State.reset.col.posMask = 0#32 ∧ State.reset.col.negMask = 0#32 ∧ State.reset.col.limitMask = 0#32 ∧
  State.reset.col.alarm = 0#8 ∧ State.reset.col.sysState = .other ∧ State.reset.col.hardLimits = false ∧
  (∀ sub, State.reset.col.endpoint sub = none) ∧
  State.reset.events = [] ∧ State.reset.col.estops = 0 ∧
  State.reset.bus.frameEnabled = false ∧ State.reset.bus.pollEnabled = false

/-- R38, R47: the state after reset satisfies the invariants. -/
def Obligations.ResetMeetsInvariant : Prop := Inv State.reset

/-- R300: with nothing offered the block executes nothing. That the model then stays in its state is
its own reading (notes/assumptions/5.md). -/
def Obligations.IdleWithoutInput : Prop :=
  ∀ s : State, s.inputs = [] → step s = .next s

/-- R90, R102: a word at the port that decodes to a command runs that command on this very state; the
command's answer takes the word off the port. -/
def Obligations.StepRunsDecodedCommand : Prop :=
  ∀ (s : State) (w : Command) (rest : List Input) (i : Instr),
    s.inputs = .command w :: rest → decode w = .ok i → step s = exec i s

/-- The same through the host's entry point: a well-formed command's own word, offered at any state,
is the next thing the machine runs. How a program comes to run is the model's choice
(notes/assumptions/4.md). -/
def Obligations.OfferedCommandRuns : Prop :=
  ∀ (s : State) (i : Instr), i.wf = true →
    decodeTableWord 40 (encode i).toNat = some i ∧
    step (s.withFetchWord 40 (encode i).toNat) = exec i (s.withFetchWord 40 (encode i).toNat) ∧
    (s.withFetchWord 40 (encode i).toNat).bus = s.bus ∧
    (s.withFetchWord 40 (encode i).toNat).col = s.col

/-- R102, R103: the two stages of decoding, as the machine answers them. An opcode outside the eleven
gives `ERR_ILLEGAL_OP`; for a known opcode a set reserved bit gives `ERR_RESERVED_BITS`; both change
no state. Every other word runs the command of its opcode. -/
def Obligations.RejectedWordsAreAnswered : Prop :=
  ∀ (s : State) (w : Command) (rest : List Input), s.inputs = .command w :: rest →
    ((w.extractLsb' 32 8) ∉ [0x01#8, 0x02#8, 0x03#8, 0x04#8, 0x10#8, 0x11#8, 0x12#8, 0x13#8, 0x14#8,
        0x15#8, 0x20#8] → step s = .next (reply 1#4 0#32 s)) ∧
    (∀ o : Opcode, w.extractLsb' 32 8 = (matchWord o).extractLsb' 32 8 →
      (w &&& maskWord o ≠ matchWord o → step s = .next (reply 2#4 0#32 s)) ∧
      (w &&& maskWord o = matchWord o → step s = exec (operands w o) s ∧ (operands w o).opcode = o))

/-- Some of the words of 95_test_vectors.md section 2.1, one of each format. -/
def Obligations.WrittenWordsDecode : Prop :=
  decode 0x01000C0D0E#40 = .ok (.cfgPins 12 13 14) ∧
  decode 0x0200000104#40 = .ok (.cfgMode true 4) ∧
  decode 0x0300000000#40 = .ok .start ∧
  decode 0x100000FF1F#40 = .ok (.attach 255 31) ∧
  decode 0x1100000003#40 = .ok (.detach 3) ∧
  decode 0x13000001FF#40 = .ok (.reconcile 0x1FF#32) ∧
  decode 0x2000000023#40 = .ok (.rdreg 35)

/-- Decoding the word of a well-formed command gives it back (R91 to R102). -/
def Obligations.DecodeOfEncode : Prop :=
  ∀ i : Instr, i.wf = true → decode (encode i) = .ok i

/-- A word that decodes is the word of the command it decodes to, and that command is well-formed: each
command has one word. -/
def Obligations.EncodeOfDecode : Prop :=
  ∀ (w : Command) (i : Instr), decode w = .ok i → i.wf = true ∧ encode i = w

/-- R99, R262: where status and data stand in a response, and the numbers of the codes. -/
def Obligations.ResponseLayout : Prop :=
  (∀ (st : Status) (d : Word), (responseWord st d).extractLsb' 32 4 = Status.code st ∧
    (responseWord st d).extractLsb' 0 32 = d) ∧
  [Status.ok, .illegalOp, .reservedBits, .pinsIncomplete, .numChips, .running, .notConfigured,
    .pinRange, .chipsConflict, .reg, .notRunning].map (fun st => (Status.code st).toNat) = List.range 11

/-! ### The eleven commands: result, refusals and frame -/

/-- R232: `CFG_PINS`: its word, its checks, its effect. -/
def Obligations.CfgPinsResult : Prop :=
  ∀ (clk latch data : PinId) (s : State),
    decode (0x0100000000#40 ||| clk.setWidth 40 <<< 16 ||| latch.setWidth 40 <<< 8 ||| data.setWidth 40) =
      .ok (.cfgPins clk latch data) ∧
    (s.bus.run = true → exec (.cfgPins clk latch data) s = .next (reply 5#4 0#32 s)) ∧
    (s.bus.run = false →
      ¬ (clk ≠ 0xFF#8 ∧ latch ≠ 0xFF#8 ∧ data ≠ 0xFF#8) →
      ¬ (clk = 0xFF#8 ∧ latch = 0xFF#8 ∧ data = 0xFF#8) →
      exec (.cfgPins clk latch data) s = .next (reply 3#4 0#32 s)) ∧
    (s.bus.run = false →
      ((clk ≠ 0xFF#8 ∧ latch ≠ 0xFF#8 ∧ data ≠ 0xFF#8) ∨
        (clk = 0xFF#8 ∧ latch = 0xFF#8 ∧ data = 0xFF#8)) →
      ∃ t, exec (.cfgPins clk latch data) s = .next t ∧
        t.bus.clkPin = clk ∧ t.bus.latchPin = latch ∧ t.bus.dataPin = data ∧
        (t.bus.configured = true ↔ clk ≠ 0xFF#8) ∧
        t = reply 0#4 0#32 { s with bus := { s.bus with cfgPins := t.bus.cfgPins } })

/-- R234: `CFG_MODE`: its word, the checks in their order, its effect. -/
def Obligations.CfgModeResult : Prop :=
  ∀ (shiftIn : Bool) (chips : Nat) (s : State),
    (chips < 8 → decode (0x0200000000#40 ||| (BitVec.ofBool shiftIn).setWidth 40 <<< 8 |||
      BitVec.ofNat 40 chips) = .ok (.cfgMode shiftIn chips)) ∧
    (s.bus.run = true → exec (.cfgMode shiftIn chips) s = .next (reply 5#4 0#32 s)) ∧
    (s.bus.run = false → (chips < 1 ∨ 4 < chips) →
      exec (.cfgMode shiftIn chips) s = .next (reply 4#4 0#32 s)) ∧
    (s.bus.run = false → 1 ≤ chips → chips ≤ 4 → 8 * chips < s.bus.hi.toNat →
      exec (.cfgMode shiftIn chips) s = .next (reply 8#4 0#32 s)) ∧
    (s.bus.run = false → 1 ≤ chips → chips ≤ 4 → s.bus.hi.toNat ≤ 8 * chips →
      ∃ t, exec (.cfgMode shiftIn chips) s = .next t ∧
        t.bus.numChips = chips ∧ t.bus.useShiftIn = shiftIn ∧
        t.bus.cfgMode.extractLsb' 3 5 = 0#5 ∧
        t = reply 0#4 0#32 { s with bus := { s.bus with cfgMode := t.bus.cfgMode } })

/-- R236: `START`: its word, its checks, its effect. -/
def Obligations.StartResult : Prop :=
  ∀ s : State,
    decode 0x0300000000#40 = .ok .start ∧
    (s.bus.run = true → exec .start s = .next (reply 5#4 0#32 s)) ∧
    (s.bus.run = false → s.bus.configured = false → exec .start s = .next (reply 6#4 0#32 s)) ∧
    (s.bus.run = false → s.bus.configured = true →
      ∃ t, exec .start s = .next t ∧
        t = reply 0#4 0#32 { s with bus := { s.bus with run := true } } ∧
        (t.bus.frameEnabled = true ↔ s.bus.useShiftIn = false) ∧
        (t.bus.pollEnabled = true ↔ s.bus.useShiftIn = true))

/-- R237: `STOP`: its word, its check, its effect; all other state is kept and neither sampler step is enabled afterwards. -/
def Obligations.StopResult : Prop :=
  ∀ s : State,
    decode 0x0400000000#40 = .ok .stop ∧
    (s.bus.run = false → exec .stop s = .next (reply 10#4 0#32 s)) ∧
    (s.bus.run = true →
      ∃ t, exec .stop s = .next t ∧
        t = reply 0#4 0#32 { s with bus := { s.bus with run := false } } ∧
        t.bus.frameEnabled = false ∧ t.bus.pollEnabled = false)

/-- R166: `ATTACH`, whatever `RUN` is. -/
def Obligations.AttachResult : Prop :=
  ∀ (sub : SubId) (pin : Nat) (s : State), pin < 32 →
    decode (0x1000000000#40 ||| sub.setWidth 40 <<< 8 ||| BitVec.ofNat 40 pin) = .ok (.attach sub pin) ∧
    (8 * s.bus.numChips ≤ pin → exec (.attach sub pin) s = .next (reply 7#4 0#32 s)) ∧
    (pin < 8 * s.bus.numChips →
      ∃ t, exec (.attach sub pin) s = .next t ∧
        t.bus.cbAt pin = some sub ∧ (∀ j, j ≠ pin → t.bus.cbAt j = s.bus.cbAt j) ∧
        t.bus.hi.toNat = max s.bus.hi.toNat (pin + 1) ∧
        (∀ j, t.bus.interest.getLsbD j = (s.bus.interest.getLsbD j || decide (j = pin))) ∧
        t = reply 0#4 0#32 { s with bus := { s.bus with
              cb := t.bus.cb, hi := t.bus.hi, interest := t.bus.interest } })

/-- R168: `DETACH` clears one bit of `INTEREST`, keeps `CB` and `HI`, and is never refused. -/
def Obligations.DetachResult : Prop :=
  ∀ (pin : Nat) (s : State), pin < 32 →
    decode (0x1100000000#40 ||| BitVec.ofNat 40 pin) = .ok (.detach pin) ∧
    ∃ t, exec (.detach pin) s = .next t ∧
      (∀ j, t.bus.interest.getLsbD j = (s.bus.interest.getLsbD j && decide (j ≠ pin))) ∧
      t = reply 0#4 0#32 { s with bus := { s.bus with interest := t.bus.interest } }

/-- R169: `READ_VALUE` returns `LIW`; no state changes. -/
def Obligations.ReadValueResult : Prop :=
  ∀ s : State, decode 0x1200000000#40 = .ok .readValue ∧
    exec .readValue s = .next (reply 0#4 s.bus.liw s)

/-- R170, R172: `RECONCILE`. While a sampler is started it is refused; else `LIW` and `PREV` end at the
word, every owed event is recorded and its handler run, in order, and nothing else of the block
changes. What may fall between the handlers' actions is the model's reading (notes/assumptions/3.md); that
a supplied handler writes no endpoint record, no `LIMIT_MASK` and no `supplied` is its choice
(notes/assumptions/9.md), along with R41 and R44. -/
def Obligations.ReconcileResult : Prop :=
  ∀ (value : Word) (s : State),
    decode (0x1300000000#40 ||| value.setWidth 40) = .ok (.reconcile value) ∧
    (s.bus.run = true → exec (.reconcile value) s = .next (reply 5#4 0#32 s)) ∧
    (s.bus.run = false → BusInv s.bus →
      ∃ c, c = handled preemptSlot value (owedEvents s.bus value) s.col ∧
        exec (.reconcile value) s = .next (reply 0#4 0#32 { s with
          bus := { s.bus with liw := value, prev := value }
          col := c
          events := s.events ++ owedEvents s.bus value }) ∧
        c.ep = s.col.ep ∧ c.limitMask = s.col.limitMask ∧ c.supplied = s.col.supplied)

/-- R238: `SET_PIN_USED` sets one bit of `PINS_USED`, and is never refused; no command clears one. -/
def Obligations.SetPinUsedResult : Prop :=
  (∀ (pin : Nat) (s : State), pin < 32 →
    decode (0x1400000000#40 ||| BitVec.ofNat 40 pin) = .ok (.setPinUsed pin) ∧
    ∃ t, exec (.setPinUsed pin) s = .next t ∧
      (∀ j, t.bus.pinsUsed.getLsbD j = (s.bus.pinsUsed.getLsbD j || decide (j = pin))) ∧
      t = reply 0#4 0#32 { s with bus := { s.bus with pinsUsed := t.bus.pinsUsed } }) ∧
  ∀ (i : Instr) (s t : State), exec i s = .next t →
    ∀ j, s.bus.pinsUsed.getLsbD j = true → t.bus.pinsUsed.getLsbD j = true

/-- R239: `GET_PINS_USED` returns `PINS_USED`; no state changes and there is no refusal. -/
def Obligations.GetPinsUsedResult : Prop :=
  ∀ s : State, decode 0x1500000000#40 = .ok .getPinsUsed ∧
    exec .getPinsUsed s = .next (reply 0#4 s.bus.pinsUsed s)

/-- R36, R240: `RDREG` for every register number. -/
def Obligations.RdregResult : Prop :=
  ∀ s : State,
    (∀ reg, reg < 64 → decode (0x2000000000#40 ||| BitVec.ofNat 40 reg) = .ok (.rdreg reg)) ∧
    exec (.rdreg 0) s = exec .readValue s ∧
    exec (.rdreg 0) s = .next (reply 0#4 s.bus.liw s) ∧
    exec (.rdreg 1) s = .next (reply 0#4 s.bus.prev s) ∧
    exec (.rdreg 2) s = .next (reply 0#4 s.bus.interest s) ∧
    exec (.rdreg 3) s = .next (reply 0#4 (s.bus.hi.setWidth 32) s) ∧
    exec (.rdreg 4) s = .next (reply 0#4 s.bus.pinsUsed s) ∧
    exec (.rdreg 5) s = .next (reply 0#4 (s.bus.cfgPins.setWidth 32) s) ∧
    exec (.rdreg 6) s = .next (reply 0#4 (s.bus.cfgMode.setWidth 32) s) ∧
    exec (.rdreg 7) s = .next (reply 0#4 s.bus.statusWord s) ∧
    exec (.rdreg 8) s = .next (reply 0#4 s.bus.frames s) ∧
    exec (.rdreg 9) s = .next (reply 0#4 s.bus.changes s) ∧
    (∀ reg, 10 ≤ reg → reg ≤ 31 → exec (.rdreg reg) s = .next (reply 9#4 0#32 s)) ∧
    (∀ i, i < 32 → s.bus.cbAt i = none → exec (.rdreg (32 + i)) s = .next (reply 0#4 0#32 s)) ∧
    (∀ i sub, i < 32 → s.bus.cbAt i = some sub →
      ∃ d, exec (.rdreg (32 + i)) s = .next (reply 0#4 d s) ∧ d.toNat = 0x100 + sub.toNat)

/-- R33: the composite `STATUS`, register number 7. -/
def Obligations.StatusComposite : Prop :=
  ∀ s : State, ∃ status,
    exec (.rdreg 7) s = .next (reply 0#4 status s) ∧
    status.getLsbD 0 = s.bus.run ∧
    (status.getLsbD 1 = true ↔
      s.bus.clkPin ≠ 0xFF#8 ∧ s.bus.latchPin ≠ 0xFF#8 ∧ s.bus.dataPin ≠ 0xFF#8) ∧
    ∀ j, 2 ≤ j → status.getLsbD j = false

/-! ### All commands -/

/-- R90: from a state that meets the invariants every command, well-formed or not, completes, with
exactly one response; it leaves `FB`, the counters and the LimitEndpoint outcomes as they were. -/
def Obligations.EveryCommandCompletes : Prop :=
  ∀ (i : Instr) (s : State), Inv s →
    ∃ t r, exec i s = .next t ∧ t.responses = s.responses ++ [r] ∧ t.inputs = s.inputs.tail ∧
      t.bus.fb = s.bus.fb ∧ t.bus.frames = s.bus.frames ∧ t.bus.changes = s.bus.changes ∧
      t.leOutcomes = s.leOutcomes

/-- R261, R99: a response whose status is not `OK` comes with data 0 and with no change of state but
the port's own. -/
def Obligations.RefusalChangesNothing : Prop :=
  ∀ (i : Instr) (s t : State), exec i s = .next t →
    ∃ r : Response, t.responses = s.responses ++ [r] ∧
      (r.extractLsb' 32 4 ≠ 0#4 →
        r.extractLsb' 0 32 = 0#32 ∧ t = { s with responses := t.responses, inputs := s.inputs.tail })

/-- R25, R41 to R45: a command other than `RECONCILE` leaves `LIW`, `PREV`, every collaborator word and
the event trace as they were. -/
def Obligations.OnlyReconcileReachesSubscribers : Prop :=
  ∀ (i : Instr) (s t : State), (∀ v, i ≠ .reconcile v) → exec i s = .next t →
    t.bus.liw = s.bus.liw ∧ t.bus.prev = s.bus.prev ∧ t.bus.fb = s.bus.fb ∧
    t.bus.frames = s.bus.frames ∧ t.bus.changes = s.bus.changes ∧
    t.col = s.col ∧ t.events = s.events ∧ t.leOutcomes = s.leOutcomes

/-! ### Reconciliation -/

/-- R174: the pins one `RECONCILE` dispatches are exactly those below `HI`, interested and changed; they
are dispatched once each, in ascending order, each to the subscriber `CB` names and with its new
level. -/
def Obligations.DispatchSetAndOrder : Prop :=
  ∀ (value : Word) (s t : State), s.bus.run = false → BusInv s.bus →
    exec (.reconcile value) s = .next t →
    ∃ es, t.events = s.events ++ es ∧
      (∀ i, i ∈ es.map Event.pin ↔ i < s.bus.hi.toNat ∧ s.bus.interest.getLsbD i = true ∧
        s.bus.prev.getLsbD i ≠ value.getLsbD i) ∧
      (es.map Event.pin).Pairwise (· < ·) ∧
      ∀ e ∈ es, s.bus.cbAt e.pin = some e.sub ∧ e.lvl = value.getLsbD e.pin

/-- R177: no position at or above the scan bound, so none at or above `8*NUM_CHIPS`, is dispatched, even
if higher bits of the delivered word are nonzero; those bits are stored. -/
def Obligations.BoundedScan : Prop :=
  ∀ (value : Word) (s t : State), s.bus.run = false → BusInv s.bus →
    exec (.reconcile value) s = .next t →
    (∃ es, t.events = s.events ++ es ∧
      ∀ e ∈ es, e.pin < s.bus.hi.toNat ∧ e.pin < 8 * s.bus.numChips) ∧
    t.bus.liw = value ∧ t.bus.prev = value

/-- R70: a word equal to the previous one changes nothing and dispatches nothing. -/
def Obligations.EqualWordIsNoOperation : Prop :=
  ∀ s : State, BusInv s.bus → s.bus.run = false →
    exec (.reconcile s.bus.prev) s = .next (reply 0#4 0#32 s)

/-- R176: over any sequence of words delivered by the active producer (the started sampler, or the host
while none is started) a subscriber is invoked for its pin exactly once per flip of the pin's bit
between consecutive words, at the new level, and never while the pin is not interested. -/
def Obligations.EdgeDetectionCorrect : Prop :=
  ∀ (vs : List (Word × Word)) (s : State) (i : Nat), BusInv s.bus →
    s.inputs = vs.map (fun v => producerInput s.bus v.1 v.2) →
    ∃ t, Host.Core.run Sys2Proof.core vs.length s = .next t ∧
      (∀ sub, s.bus.interest.getLsbD i = true → s.bus.cbAt i = some sub →
        eventsFor i t.events = eventsFor i s.events ++
          flipEvents i sub s.bus.prev (vs.map fun v => deliveredWord s.bus v.1)) ∧
      (s.bus.interest.getLsbD i = false → eventsFor i t.events = eventsFor i s.events)

/-! ### The samplers -/

/-- R63: in the assembled word of at most 32 arriving bits the first bit to arrive is the highest, and
nothing stands above them. -/
def Obligations.SerialOrder : Prop :=
  ∀ (bits : List Bool), bits.length ≤ 32 →
    (∀ k (hk : k < bits.length), (assemble bits).getLsbD (bits.length - 1 - k) = bits[k]) ∧
    ∀ j, bits.length ≤ j → (assemble bits).getLsbD j = false

/-- R151, R64: the poll assembly of a frame gives back the wired bits of the snapshot, and 0 above. -/
def Obligations.PollAssemblyIsSnapshot : Prop :=
  ∀ (n : Nat) (snap : Word), n ≤ 32 → assemble (stream n snap) = lowBits n snap

/-- R65, R106: the frame stands left-justified in the raw word, bit `31 - k` carrying stream bit `b_k`,
and the padding below it. -/
def Obligations.RawWordLayout : Prop :=
  ∀ (n : Nat) (snap pad : Word), n ≤ 32 →
    (∀ k, k < n → (rawWord n snap pad).getLsbD (31 - k) = streamBit n snap k) ∧
    ∀ j, j < 32 - n → (rawWord n snap pad).getLsbD j = pad.getLsbD j

/-- R134: the sample is the wired bits of the snapshot whatever the padding was, and 0 above. -/
def Obligations.SampleIgnoresPadding : Prop :=
  ∀ (n : Nat) (snap pad : Word), n ≤ 32 →
    extractSample n (rawWord n snap pad) = lowBits n snap

/-- R135: `FRAME_DONE`. The counters follow the rule's pseudocode; 93_implementation_defined.md U3 warns
that a real block may miss counts (notes/assumptions/14.md). Interrupt context: no choice of the
environment is used up (notes/assumptions/3.md). That a step that is not enabled is dropped is the model's
choice (notes/assumptions/11.md), and so is that a supplied handler writes no endpoint record, no
`LIMIT_MASK` and no `supplied` (notes/assumptions/9.md), along with R41 and R44. -/
def Obligations.FrameDoneResult : Prop :=
  ∀ (snap pad : Word) (rest : List Input) (s : State), BusInv s.bus →
    s.inputs = .agent (.frameDone snap pad) :: rest →
    (s.bus.frameEnabled = false → step s = .next { s with inputs := rest }) ∧
    (s.bus.frameEnabled = true →
      ∃ sample c, sample = lowBits (8 * s.bus.numChips) snap ∧
        c = handled id sample (owedEvents s.bus sample) s.col ∧
        step s = .next { s with
          bus := { s.bus with
            fb := rawWord (8 * s.bus.numChips) snap pad
            frames := s.bus.frames + 1#32
            changes := if sample = s.bus.liw then s.bus.changes else s.bus.changes + 1#32
            liw := sample, prev := sample }
          col := c, events := s.events ++ owedEvents s.bus sample, inputs := rest } ∧
        c.preempts = s.col.preempts ∧
        c.ep = s.col.ep ∧ c.limitMask = s.col.limitMask ∧ c.supplied = s.col.supplied)

/-- R152: `POLL_CYCLE`; `FB` is not used. The counters follow the rule's pseudocode;
93_implementation_defined.md U3 warns that a real block may miss counts (notes/assumptions/14.md). What may
fall between the handlers' actions is the model's reading (notes/assumptions/3.md). That a step that is not
enabled is dropped is the model's choice (notes/assumptions/11.md), and so is that a supplied handler
writes no endpoint record, no `LIMIT_MASK` and no `supplied` (notes/assumptions/9.md), along with R41 and
R44. -/
def Obligations.PollCycleResult : Prop :=
  ∀ (snap : Word) (rest : List Input) (s : State), BusInv s.bus →
    s.inputs = .agent (.pollCycle snap) :: rest →
    (s.bus.pollEnabled = false → step s = .next { s with inputs := rest }) ∧
    (s.bus.pollEnabled = true →
      ∃ sample c, sample = lowBits (8 * s.bus.numChips) snap ∧
        c = handled preemptSlot sample (owedEvents s.bus sample) s.col ∧
        step s = .next { s with
          bus := { s.bus with
            frames := s.bus.frames + 1#32
            changes := if sample = s.bus.liw then s.bus.changes else s.bus.changes + 1#32
            liw := sample, prev := sample }
          col := c, events := s.events ++ owedEvents s.bus sample, inputs := rest } ∧
        c.ep = s.col.ep ∧ c.limitMask = s.col.limitMask ∧ c.supplied = s.col.supplied)

/-- R154: from start states that differ in `USE_SHIFT_IN` alone, the same snapshots give the same events
in the same order and leave the same words and counters, whatever the padding was and whatever the
environment does between the poller's actions. The counters follow the pseudocode, though U3 calls
them best-effort (notes/assumptions/14.md). R154 does not speak of the collaborators: that they end the
same where the environment does nothing between the actions (notes/assumptions/3.md) holds of the model,
whose free level of a native source is a function of the draw counter (notes/assumptions/2.md) and whose
supplied handlers are functions of their side's state (notes/assumptions/9.md). -/
def Obligations.SamplerEquivalence : Prop :=
  ∀ (frames : List (Word × Word)) (s p : State),
    BusInv s.bus → s.bus.frameEnabled = true →
    p = { s with
          bus := { s.bus with cfgMode := s.bus.cfgMode ||| 0x100#9 }
          inputs := frames.map fun f => Input.agent (.pollCycle f.1) } →
    s.inputs = frames.map (fun f => Input.agent (.frameDone f.1 f.2)) →
    ∃ s' p', Host.Core.run Sys2Proof.core frames.length s = .next s' ∧
      Host.Core.run Sys2Proof.core frames.length p = .next p' ∧
      p'.events = s'.events ∧ p'.bus.liw = s'.bus.liw ∧ p'.bus.prev = s'.bus.prev ∧
      p'.bus.frames = s'.bus.frames ∧ p'.bus.changes = s'.bus.changes ∧
      (s.col.preempts = [] → p'.col = s'.col)

/-! ### The reference subscriber and the environment -/

/-- R202, R203: `LE_CONSTRUCT`. -/
def Obligations.ConstructResult : Prop :=
  ∀ (sub : SubId) (axis motor dir : Nat) (source : Source) (rest : List Input) (s : State),
    s.inputs = .agent (.leConstruct sub axis motor dir source) :: rest →
    ((Config.maxAxes ≤ axis ∨ 1 < motor) →
      step s = .next { s with inputs := rest, leOutcomes := s.leOutcomes ++ [.errRange] }) ∧
    (axis < Config.maxAxes → motor ≤ 1 →
      ∃ t ep, step s = .next t ∧ t.col.endpoint sub = some ep ∧
        (∀ j, j ≠ sub → t.col.endpoint j = s.col.endpoint j) ∧
        ep.axis = axis ∧ ep.motor = motor ∧ ep.source = source ∧ ep.attached = false ∧
        (∀ j, ep.bitmask.getLsbD j = decide (j = axis + 16 * motor)) ∧
        (ep.participates = true ↔ dir ≤ 2) ∧
        (dir = 0 → ep.dir = .pos) ∧ (dir = 1 → ep.dir = .neg) ∧ (dir = 2 → ep.dir = .both) ∧
        (2 < dir → ep.dir = .invalid dir) ∧
        t = { s with
              col := { s.col with ep := t.col.ep }
              leOutcomes := s.leOutcomes ++ [if dir ≤ 2 then .ok else .errDirection]
              inputs := rest })

/-- R204: `LE_INITIALIZE`; the `ATTACH` it issues on a bus pin is that of the command, and gives no word on
the port (the model's reading, notes/assumptions/12.md). -/
def Obligations.InitializeResult : Prop :=
  ∀ (sub : SubId) (rest : List Input) (s : State) (ep : Endpoint),
    s.inputs = .agent (.leInitialize sub) :: rest → s.col.endpoint sub = some ep →
    (ep.participates = false →
      step s = .next { s with inputs := rest, leOutcomes := s.leOutcomes ++ [.errDirection] }) ∧
    (∀ p : Fin 32, ep.participates = true → ep.source = .bus p → 8 * s.bus.numChips ≤ p.val →
      step s = .next { s with inputs := rest, leOutcomes := s.leOutcomes ++ [.errAttach .pinRange] }) ∧
    (∀ p : Fin 32, ep.participates = true → ep.source = .bus p → p.val < 8 * s.bus.numChips →
      ∃ t u, step s = .next t ∧ exec (.attach sub p.val) s = .next u ∧ t.bus = u.bus ∧
        t.col.endpoint sub = some { ep with attached := true } ∧
        (∀ j, j ≠ sub → t.col.endpoint j = s.col.endpoint j) ∧
        t = { s with
              bus := t.bus
              col := { s.col with ep := t.col.ep, limitMask := s.col.limitMask ||| ep.bitmask }
              leOutcomes := s.leOutcomes ++ [.ok], inputs := rest }) ∧
    (∀ n : PinId, ep.participates = true → ep.source = .native n →
      ∃ t, step s = .next t ∧
        t.col.endpoint sub = some { ep with attached := true } ∧
        (∀ j, j ≠ sub → t.col.endpoint j = s.col.endpoint j) ∧
        t = { s with
              col := { s.col with ep := t.col.ep, limitMask := s.col.limitMask ||| ep.bitmask }
              leOutcomes := s.leOutcomes ++ [.ok], inputs := rest })

/-- R208: `LE_MAKE_DUAL_AXIS_MASK` changes the record's mask alone, the same for either motor. -/
def Obligations.DualAxisMaskResult : Prop :=
  ∀ (sub : SubId) (rest : List Input) (s : State) (ep : Endpoint),
    s.inputs = .agent (.leMakeDualAxisMask sub) :: rest → s.col.endpoint sub = some ep → ep.axis < 16 →
    ∃ t m, step s = .next t ∧
      t.col.endpoint sub = some { ep with bitmask := m } ∧
      (∀ j, m.getLsbD j = (decide (j = ep.axis) || decide (j = ep.axis + 16))) ∧
      (∀ j, j ≠ sub → t.col.endpoint j = s.col.endpoint j) ∧
      t = { s with
            col := { s.col with ep := t.col.ep }
            leOutcomes := s.leOutcomes ++ [.ok], inputs := rest }

/-- R209: `LE_TEARDOWN`; the masks and `ALARM` stay as they are, which the rule marks as its own inference
("the document names no other effect"). That its `DETACH` gives no word on the port is the model's
reading (notes/assumptions/12.md). -/
def Obligations.TeardownResult : Prop :=
  ∀ (sub : SubId) (rest : List Input) (s : State) (ep : Endpoint),
    s.inputs = .agent (.leTeardown sub) :: rest → s.col.endpoint sub = some ep →
    ∃ t, step s = .next t ∧
      t.col.endpoint sub = some { ep with attached := false } ∧
      (∀ j, j ≠ sub → t.col.endpoint j = s.col.endpoint j) ∧
      (∀ p : Fin 32, ep.source = .bus p → ∀ j,
        t.bus.interest.getLsbD j = (s.bus.interest.getLsbD j && decide (j ≠ p.val))) ∧
      (∀ n : PinId, ep.source = .native n → t.bus.interest = s.bus.interest) ∧
      t = { s with
            bus := { s.bus with interest := t.bus.interest }
            col := { s.col with ep := t.col.ep }
            leOutcomes := s.leOutcomes ++ [.ok], inputs := rest }

/-- R205, R206: the edge handler in interrupt context, whatever its source: what it writes at the level it
reads, and that it writes nothing else. The level is `LIW[p]` for an invocation on a bus pin, the
step's own level under a `NATIVE_CHANGE` (R210). Where `DISPATCH` invokes an endpoint with a native source
the level is free (the model's choice, notes/assumptions/2.md): the handler is as at one of the two. -/
def Obligations.EdgeHandlerResult : Prop :=
  (∀ (liw : Word) (ep : Endpoint) (lvl : Bool) (c r : Collab),
    (r = leOnLevel id ep lvl c ∨
      ∃ p : Fin 32, ep.source = .bus p ∧ lvl = liw.getLsbD p.val ∧ r = leOnEdge id liw ep c) →
    (ep.participates = false → r = c) ∧
    (ep.participates = true →
      r.posMask = (if ep.dir = .pos ∨ ep.dir = .both then
        (if lvl then c.posMask ||| ep.bitmask else c.posMask &&& ~~~ep.bitmask) else c.posMask) ∧
      r.negMask = (if ep.dir = .neg ∨ ep.dir = .both then
        (if lvl then c.negMask ||| ep.bitmask else c.negMask &&& ~~~ep.bitmask) else c.negMask) ∧
      (lvl = true → c.sysState = .other → c.hardLimits = true → c.alarm = 0#8 →
        r.alarm = 1#8 ∧ r.estops = c.estops + 1) ∧
      (¬ (lvl = true ∧ c.sysState = .other ∧ c.hardLimits = true ∧ c.alarm = 0#8) →
        r.alarm = c.alarm ∧ r.estops = c.estops) ∧
      r = { c with posMask := r.posMask, negMask := r.negMask, alarm := r.alarm, estops := r.estops })) ∧
  ∀ (liw : Word) (ep : Endpoint) (c : Collab) (n : PinId), ep.source = .native n →
    ∃ lvl, leOnEdge id liw ep c = leOnLevel id ep lvl { c with draws := c.draws + 1 }

/-- R213: mask symmetry, bit by bit, for both levels, in interrupt context and also in task context as
long as no native pin changes between the actions (what may fall there: notes/assumptions/3.md). -/
def Obligations.MaskSymmetry : Prop :=
  ∀ (slot : Collab → Collab) (ep : Endpoint) (lvl : Bool) (c : Collab), ep.participates = true →
    InContext (fun e => ∀ n l, e ≠ .nativeChange n l) slot c →
    (ep.dir = .both → ∀ j, ep.bitmask.getLsbD j = true →
      (leOnLevel slot ep lvl c).posMask.getLsbD j = lvl ∧
      (leOnLevel slot ep lvl c).negMask.getLsbD j = lvl) ∧
    (ep.dir = .pos → (∀ j, ep.bitmask.getLsbD j = true →
      (leOnLevel slot ep lvl c).posMask.getLsbD j = lvl) ∧
      (leOnLevel slot ep lvl c).negMask = c.negMask) ∧
    (ep.dir = .neg → (∀ j, ep.bitmask.getLsbD j = true →
      (leOnLevel slot ep lvl c).negMask.getLsbD j = lvl) ∧
      (leOnLevel slot ep lvl c).posMask = c.posMask) ∧
    ∀ j, ep.bitmask.getLsbD j = false →
      (leOnLevel slot ep lvl c).posMask.getLsbD j = c.posMask.getLsbD j ∧
      (leOnLevel slot ep lvl c).negMask.getLsbD j = c.negMask.getLsbD j

/-- R214: in an alarm, config-alarm or homing state, or with a cause latched, any list of edges at any
levels leaves `ALARM` and the count of emergency stops as they were: in interrupt context, and also in
task context as long as the environment itself neither writes `ALARM` nor moves `SYS_STATE` between the
actions (what may fall there: notes/assumptions/3.md); native pins may change there. -/
def Obligations.AlarmLatchIdempotence : Prop :=
  ∀ (slot : Collab → Collab) (edges : List (Endpoint × Bool)) (c : Collab),
    (c.sysState ≠ .other ∨ c.alarm ≠ 0#8) →
    InContext (fun e => e ≠ .clearAlarm ∧ (∀ a, e ≠ .latchAlarm a) ∧ ∀ x, e ≠ .setSysState x) slot c →
    (edges.foldl (fun d e => leOnLevel slot e.1 e.2 d) c).alarm = c.alarm ∧
    (edges.foldl (fun d e => leOnLevel slot e.1 e.2 d) c).estops = c.estops

/-- R215: a handler that finds its source inactive never records a cause and never calls the emergency
stop: where other agents act between its actions but never do so themselves, and in either context of
the machine as long as the environment does not write `ALARM` and no native pin becomes active between
the actions (what may fall there: notes/assumptions/3.md). -/
def Obligations.NoAlarmOnRelease : Prop :=
  ∀ (slot : Collab → Collab) (ep : Endpoint) (c : Collab),
    ((∀ d, (slot d).alarm = d.alarm ∧ (slot d).estops = d.estops) ∨
      InContext (fun e => e ≠ .clearAlarm ∧ (∀ a, e ≠ .latchAlarm a) ∧ ∀ n, e ≠ .nativeChange n true)
        slot c) →
    ((leOnLevel slot ep false c).alarm = c.alarm ∧ (leOnLevel slot ep false c).estops = c.estops) ∧
    ∀ (liw : Word) (p : Fin 32), ep.source = .bus p → liw.getLsbD p.val = false →
      (leOnEdge slot liw ep c).alarm = c.alarm ∧ (leOnEdge slot liw ep c).estops = c.estops

/-- R216: after an endpoint's mask is folded, every write of its handler leaves the two motors' bits of
its axis equal in the masks it writes, equal to the level: in interrupt context, and also in task context
as long as no native pin changes between the actions (what may fall there: notes/assumptions/3.md). -/
def Obligations.DualMotorFolding : Prop :=
  ∀ (slot : Collab → Collab) (ep : Endpoint) (lvl : Bool) (c : Collab), ep.participates = true →
    ep.axis < 16 → ep.bitmask = dualAxisMask ep.axis →
    InContext (fun e => ∀ n l, e ≠ .nativeChange n l) slot c →
    ((ep.dir = .pos ∨ ep.dir = .both) →
      (leOnLevel slot ep lvl c).posMask.getLsbD ep.axis = lvl ∧
      (leOnLevel slot ep lvl c).posMask.getLsbD (ep.axis + 16) = lvl) ∧
    ((ep.dir = .neg ∨ ep.dir = .both) →
      (leOnLevel slot ep lvl c).negMask.getLsbD ep.axis = lvl ∧
      (leOnLevel slot ep lvl c).negMask.getLsbD (ep.axis + 16) = lvl)

/-- R210: a native pin change runs the handlers of the attached endpoints bound to that pin, however many
there are, and no other; the block takes no part in it. The result is given for every order of them, so
it does not rest on the order the model takes (notes/assumptions/13.md): a mask bit that any of them
writes takes the level, and an armed activation records one cause and calls the emergency stop once. -/
def Obligations.NativeChangeResult : Prop :=
  ∀ (n : PinId) (lvl : Bool) (rest : List Input) (s : State),
    s.inputs = .agent (.env (.nativeChange n lvl)) :: rest →
    ((∀ sub ep, s.col.endpoint sub = some ep → ep.source = .native n → ep.attached = false) →
      step s = .next { s with inputs := rest }) ∧
    (∀ sub ep, s.col.endpoint sub = some ep → ep.source = .native n → ep.attached = true →
      (∀ sub' ep', s.col.endpoint sub' = some ep' → ep'.source = .native n → ep'.attached = true →
        sub' = sub) →
      step s = .next { s with inputs := rest, col := leOnLevel id ep lvl s.col }) ∧
    ∀ (subs : List SubId) (eps : List Endpoint), subs.Nodup →
      (∀ sub, sub ∈ subs ↔
        ∃ ep, s.col.endpoint sub = some ep ∧ ep.source = .native n ∧ ep.attached = true) →
      eps = subs.filterMap s.col.endpoint →
      ∃ c, step s = .next { s with inputs := rest, col := c } ∧
        c = eps.foldl (fun d ep => leOnLevel id ep lvl d) s.col ∧
        (∀ j, c.posMask.getLsbD j =
          if ∃ ep ∈ eps, ep.participates = true ∧ (ep.dir = .pos ∨ ep.dir = .both) ∧
            ep.bitmask.getLsbD j = true then lvl else s.col.posMask.getLsbD j) ∧
        (∀ j, c.negMask.getLsbD j =
          if ∃ ep ∈ eps, ep.participates = true ∧ (ep.dir = .neg ∨ ep.dir = .both) ∧
            ep.bitmask.getLsbD j = true then lvl else s.col.negMask.getLsbD j) ∧
        ((lvl = true ∧ (∃ ep ∈ eps, ep.participates = true) ∧ s.col.sysState = .other ∧
            s.col.hardLimits = true ∧ s.col.alarm = 0#8) →
          c.alarm = 1#8 ∧ c.estops = s.col.estops + 1) ∧
        (¬ (lvl = true ∧ (∃ ep ∈ eps, ep.participates = true) ∧ s.col.sysState = .other ∧
            s.col.hardLimits = true ∧ s.col.alarm = 0#8) →
          c.alarm = s.col.alarm ∧ c.estops = s.col.estops) ∧
        c = { s.col with
              posMask := c.posMask, negMask := c.negMask, alarm := c.alarm, estops := c.estops }

/-- R211: each step of MotionSafety writes its own word and nothing else; a read returns the whole word
and changes none. -/
def Obligations.EnvStepResults : Prop :=
  ∀ (rest : List Input) (s : State),
    (∀ x, s.inputs = .agent (.env (.setSysState x)) :: rest →
      step s = .next { s with inputs := rest, col := { s.col with sysState := x } }) ∧
    (∀ b, s.inputs = .agent (.env (.setHardLimits b)) :: rest →
      step s = .next { s with inputs := rest, col := { s.col with hardLimits := b } }) ∧
    (s.inputs = .agent (.env .clearAlarm) :: rest →
      step s = .next { s with inputs := rest, col := { s.col with alarm := 0#8 } }) ∧
    (s.inputs = .agent (.env (.read .posMask)) :: rest →
      step s = .next { s with inputs := rest, col := { s.col with
        envReads := s.col.envReads ++ [(.posMask, s.col.posMask)] } }) ∧
    (s.inputs = .agent (.env (.read .negMask)) :: rest →
      step s = .next { s with inputs := rest, col := { s.col with
        envReads := s.col.envReads ++ [(.negMask, s.col.negMask)] } }) ∧
    (s.inputs = .agent (.env (.read .limitMask)) :: rest →
      step s = .next { s with inputs := rest, col := { s.col with
        envReads := s.col.envReads ++ [(.limitMask, s.col.limitMask)] } }) ∧
    (s.inputs = .agent (.env (.read .alarm)) :: rest →
      step s = .next { s with inputs := rest, col := { s.col with
        envReads := s.col.envReads ++ [(.alarm, s.col.alarm.setWidth 32)] } })

/-- R175: the handler map is total. A constructed endpoint has the edge handler `LE_ON_EDGE`; an
identifier with neither an endpoint nor a supplied handler has one that does nothing. -/
def Obligations.HandlerMapIsTotal : Prop :=
  ∀ (slot : Collab → Collab) (liw : Word) (sub : SubId) (pin : Nat) (lvl : Bool) (c : Collab),
    (∀ ep, c.endpoint sub = some ep → runHandler slot liw sub pin lvl c = leOnEdge slot liw ep c) ∧
    (c.endpoint sub = none → sub ∉ c.supplied → runHandler slot liw sub pin lvl c = c)

/-- R72, R73: where the environment chooses nothing between the actions, the handler of any subscriber
does in task context what it does in interrupt context. What the actions are is R206's labels and the
model's reading (notes/assumptions/3.md); that a supplied handler is one action is its choice
(notes/assumptions/9.md). -/
def Obligations.TaskHandlerRefinesInterruptHandler : Prop :=
  ∀ (liw : Word) (sub : SubId) (pin : Nat) (lvl : Bool) (c : Collab),
    c.preempts = [] → runHandler preemptSlot liw sub pin lvl c = runHandler id liw sub pin lvl c

/-- R316: in task context a reader may see `POS_MASK` already set and `NEG_MASK` not yet, for a `BOTH`
endpoint that ends with both set. Nothing has been read and no mask bit is set before; the RECONCILE
invokes this endpoint's handler alone, and the environment only reads, so the two reads fall between its
lines A2 and A3 (how such a placement is said: notes/assumptions/3.md). -/
def Obligations.TornMaskViewIsPossible : Prop :=
  ∃ (s t : State) (v : Word) (sub : SubId) (pin : Nat) (ep : Endpoint), Inv s ∧
    s.bus.run = false ∧ s.col.envReads = [] ∧ s.col.posMask = 0#32 ∧ s.col.negMask = 0#32 ∧
    s.col.endpoint sub = some ep ∧ ep.dir = .both ∧ ep.bitmask = 1#32 ∧
    (∀ es ∈ s.col.preempts, ∀ e ∈ es, ∃ r, e = EnvStep.read r) ∧
    exec (.reconcile v) s = .next t ∧ t.events = s.events ++ [⟨sub, pin, true⟩] ∧
    t.col.envReads = [(.posMask, 1#32), (.negMask, 0#32)] ∧
    t.col.posMask = 1#32 ∧ t.col.negMask = 1#32

/-! ### The whole machine -/

/-- R38, R44: every step keeps the invariants, from every state that meets them. -/
def Obligations.StepKeepsInvariant : Prop :=
  ∀ s t : State, Inv s → step s = .next t → Inv t

/-- R172 ("Faults: none"), R38 (d): from a state that meets the invariants no step is refused and no
dispatch fails; the one stop is a LimitEndpoint operation on an identifier under which no endpoint
has been constructed (notes/assumptions/6.md). -/
def Obligations.InvariantStatesNeverStop : Prop :=
  ∀ s : State, Inv s →
    (∃ t, step s = .next t) ∨
    (step s = .fault .noEndpoint ∧ ∃ sub rest, s.col.endpoint sub = none ∧
      (s.inputs = .agent (.leInitialize sub) :: rest ∨
        s.inputs = .agent (.leMakeDualAxisMask sub) :: rest ∨
        s.inputs = .agent (.leTeardown sub) :: rest))

/-- R46, R231, R312: while `RUN = 1` no step of any agent changes the configuration registers. -/
def Obligations.ConfigurationFrozenWhileRunning : Prop :=
  ∀ s t : State, s.bus.run = true → step s = .next t →
    t.bus.cfgPins = s.bus.cfgPins ∧ t.bus.cfgMode = s.bus.cfgMode

/-- R28: only `START` sets `RUN`, only `STOP` clears it. -/
def Obligations.RunChangedOnlyByStartAndStop : Prop :=
  ∀ s t : State, step s = .next t → t.bus.run ≠ s.bus.run →
    ∃ w rest, s.inputs = .command w :: rest ∧
      ((decode w = .ok .start ∧ t.bus.run = true) ∨ (decode w = .ok .stop ∧ t.bus.run = false))

/-- R30, R31, R37, R204: `HI` never falls, no bit of `PINS_USED` or `LIMIT_MASK` is ever cleared, no
entry of `CB` returns to `none`. -/
def Obligations.NeverLowered : Prop :=
  ∀ s t : State, step s = .next t →
    s.bus.hi.toNat ≤ t.bus.hi.toNat ∧
    (∀ i, s.bus.pinsUsed.getLsbD i = true → t.bus.pinsUsed.getLsbD i = true) ∧
    (∀ i, s.col.limitMask.getLsbD i = true → t.col.limitMask.getLsbD i = true) ∧
    (∀ i, s.bus.cbAt i ≠ none → t.bus.cbAt i ≠ none)

/-- R21, R22, R25: `LIW` and `PREV` change only in an enabled sampler step or in the host's
`RECONCILE`. -/
def Obligations.LogicalWordWriters : Prop :=
  ∀ s t : State, step s = .next t → (t.bus.liw ≠ s.bus.liw ∨ t.bus.prev ≠ s.bus.prev) →
    ∃ input rest, s.inputs = input :: rest ∧
      ((∃ snap pad, input = .agent (.frameDone snap pad) ∧ s.bus.frameEnabled = true) ∨
       (∃ snap, input = .agent (.pollCycle snap) ∧ s.bus.pollEnabled = true) ∨
       (∃ w v, input = .command w ∧ decode w = .ok (.reconcile v) ∧ s.bus.run = false))

/-- R71, R267: every invocation any step makes goes through the gate: the pin is below `HI` and
interested, and the subscriber is the one `CB` names. No event is ever taken back. -/
def Obligations.EveryEventIsGated : Prop :=
  ∀ s t : State, step s = .next t →
    ∃ es, t.events = s.events ++ es ∧
      ∀ e ∈ es, e.pin < s.bus.hi.toNat ∧ s.bus.interest.getLsbD e.pin = true ∧
        s.bus.cbAt e.pin = some e.sub

/-- R42, R317: a latched cause is never overwritten. Unless the environment clears it, in this step or
between its actions, `ALARM` keeps any value other than `NONE`. That the environment's other causes obey
this too is the model's choice (notes/assumptions/10.md). -/
def Obligations.LatchedAlarmIsKept : Prop :=
  ∀ s t : State, s.col.alarm ≠ 0#8 → step s = .next t →
    (∀ rest, s.inputs ≠ .agent (.env .clearAlarm) :: rest) →
    (∀ es ∈ s.col.preempts, EnvStep.clearAlarm ∉ es) →
    t.col.alarm = s.col.alarm

/-- R206, R212, R265: with the alarm path disarmed or a cause latched, no step calls the emergency stop,
provided no supplied handler is present and the environment acts only by reading. -/
def Obligations.EmergencyStopOnlyWhenArmed : Prop :=
  ∀ s t : State, (s.col.sysState ≠ .other ∨ s.col.hardLimits = false ∨ s.col.alarm ≠ 0#8) →
    s.col.supplied = [] → (∀ es ∈ s.col.preempts, ∀ e ∈ es, ∃ r, e = EnvStep.read r) →
    step s = .next t → t.col.estops = s.col.estops
end

