-- ==== Sys2Proof/Laws/State.lean ====
section
/-! SUPPORT. One lemma per field per update of the state: later proofs unfold no record update. -/

namespace Sys2Proof.Machine

/-! `State.withBus` -/

@[simp] theorem State.withBus_bus (s : State) (b : Bus) : (s.withBus b).bus = b := rfl
@[simp] theorem State.withBus_col (s : State) (b : Bus) : (s.withBus b).col = s.col := rfl
@[simp] theorem State.withBus_events (s : State) (b : Bus) : (s.withBus b).events = s.events := rfl
@[simp] theorem State.withBus_responses (s : State) (b : Bus) : (s.withBus b).responses = s.responses := rfl
@[simp] theorem State.withBus_leOutcomes (s : State) (b : Bus) : (s.withBus b).leOutcomes = s.leOutcomes := rfl
@[simp] theorem State.withBus_inputs (s : State) (b : Bus) : (s.withBus b).inputs = s.inputs := rfl

/-! `State.withCol` -/

@[simp] theorem State.withCol_bus (s : State) (c : Collab) : (s.withCol c).bus = s.bus := rfl
@[simp] theorem State.withCol_col (s : State) (c : Collab) : (s.withCol c).col = c := rfl
@[simp] theorem State.withCol_events (s : State) (c : Collab) : (s.withCol c).events = s.events := rfl
@[simp] theorem State.withCol_responses (s : State) (c : Collab) : (s.withCol c).responses = s.responses := rfl
@[simp] theorem State.withCol_leOutcomes (s : State) (c : Collab) : (s.withCol c).leOutcomes = s.leOutcomes := rfl
@[simp] theorem State.withCol_inputs (s : State) (c : Collab) : (s.withCol c).inputs = s.inputs := rfl

/-! `State.recordEvent` -/

@[simp] theorem State.recordEvent_bus (s : State) (e : Event) : (s.recordEvent e).bus = s.bus := rfl
@[simp] theorem State.recordEvent_col (s : State) (e : Event) : (s.recordEvent e).col = s.col := rfl
@[simp] theorem State.recordEvent_events (s : State) (e : Event) : (s.recordEvent e).events = s.events ++ [e] := rfl
@[simp] theorem State.recordEvent_responses (s : State) (e : Event) : (s.recordEvent e).responses = s.responses := rfl
@[simp] theorem State.recordEvent_leOutcomes (s : State) (e : Event) : (s.recordEvent e).leOutcomes = s.leOutcomes := rfl
@[simp] theorem State.recordEvent_inputs (s : State) (e : Event) : (s.recordEvent e).inputs = s.inputs := rfl

/-! `State.recordLe` -/

@[simp] theorem State.recordLe_bus (s : State) (o : LeOutcome) : (s.recordLe o).bus = s.bus := rfl
@[simp] theorem State.recordLe_col (s : State) (o : LeOutcome) : (s.recordLe o).col = s.col := rfl
@[simp] theorem State.recordLe_events (s : State) (o : LeOutcome) : (s.recordLe o).events = s.events := rfl
@[simp] theorem State.recordLe_responses (s : State) (o : LeOutcome) : (s.recordLe o).responses = s.responses := rfl
@[simp] theorem State.recordLe_leOutcomes (s : State) (o : LeOutcome) : (s.recordLe o).leOutcomes = s.leOutcomes ++ [o] := rfl
@[simp] theorem State.recordLe_inputs (s : State) (o : LeOutcome) : (s.recordLe o).inputs = s.inputs := rfl

/-! `State.withInputs` -/

@[simp] theorem State.withInputs_bus (s : State) (l : List Input) : (s.withInputs l).bus = s.bus := rfl
@[simp] theorem State.withInputs_col (s : State) (l : List Input) : (s.withInputs l).col = s.col := rfl
@[simp] theorem State.withInputs_events (s : State) (l : List Input) : (s.withInputs l).events = s.events := rfl
@[simp] theorem State.withInputs_responses (s : State) (l : List Input) : (s.withInputs l).responses = s.responses := rfl
@[simp] theorem State.withInputs_leOutcomes (s : State) (l : List Input) : (s.withInputs l).leOutcomes = s.leOutcomes := rfl
@[simp] theorem State.withInputs_inputs (s : State) (l : List Input) : (s.withInputs l).inputs = l := rfl

/-! `State.respond` -/

@[simp] theorem State.respond_bus (s : State) (st : Status) (d : Word) : (s.respond st d).bus = s.bus := rfl
@[simp] theorem State.respond_col (s : State) (st : Status) (d : Word) : (s.respond st d).col = s.col := rfl
@[simp] theorem State.respond_events (s : State) (st : Status) (d : Word) : (s.respond st d).events = s.events := rfl
@[simp] theorem State.respond_responses (s : State) (st : Status) (d : Word) : (s.respond st d).responses = s.responses ++ [responseWord st d] := rfl
@[simp] theorem State.respond_leOutcomes (s : State) (st : Status) (d : Word) : (s.respond st d).leOutcomes = s.leOutcomes := rfl
@[simp] theorem State.respond_inputs (s : State) (st : Status) (d : Word) : (s.respond st d).inputs = s.inputs.tail := rfl

/-! `Bus.commit` -/

@[simp] theorem Bus.commit_liw (b : Bus) (nv : Word) : (b.commit nv).liw = nv := rfl
@[simp] theorem Bus.commit_prev (b : Bus) (nv : Word) : (b.commit nv).prev = b.prev := rfl
@[simp] theorem Bus.commit_fb (b : Bus) (nv : Word) : (b.commit nv).fb = b.fb := rfl
@[simp] theorem Bus.commit_run (b : Bus) (nv : Word) : (b.commit nv).run = b.run := rfl
@[simp] theorem Bus.commit_interest (b : Bus) (nv : Word) : (b.commit nv).interest = b.interest := rfl
@[simp] theorem Bus.commit_hi (b : Bus) (nv : Word) : (b.commit nv).hi = b.hi := rfl
@[simp] theorem Bus.commit_pinsUsed (b : Bus) (nv : Word) : (b.commit nv).pinsUsed = b.pinsUsed := rfl
@[simp] theorem Bus.commit_cfgPins (b : Bus) (nv : Word) : (b.commit nv).cfgPins = b.cfgPins := rfl
@[simp] theorem Bus.commit_cfgMode (b : Bus) (nv : Word) : (b.commit nv).cfgMode = b.cfgMode := rfl
@[simp] theorem Bus.commit_frames (b : Bus) (nv : Word) : (b.commit nv).frames = b.frames := rfl
@[simp] theorem Bus.commit_changes (b : Bus) (nv : Word) : (b.commit nv).changes = b.changes := rfl
@[simp] theorem Bus.commit_cb (b : Bus) (nv : Word) : (b.commit nv).cb = b.cb := rfl

/-! `Bus.catchUp` -/

@[simp] theorem Bus.catchUp_liw (b : Bus) (nv : Word) : (b.catchUp nv).liw = b.liw := rfl
@[simp] theorem Bus.catchUp_prev (b : Bus) (nv : Word) : (b.catchUp nv).prev = nv := rfl
@[simp] theorem Bus.catchUp_fb (b : Bus) (nv : Word) : (b.catchUp nv).fb = b.fb := rfl
@[simp] theorem Bus.catchUp_run (b : Bus) (nv : Word) : (b.catchUp nv).run = b.run := rfl
@[simp] theorem Bus.catchUp_interest (b : Bus) (nv : Word) : (b.catchUp nv).interest = b.interest := rfl
@[simp] theorem Bus.catchUp_hi (b : Bus) (nv : Word) : (b.catchUp nv).hi = b.hi := rfl
@[simp] theorem Bus.catchUp_pinsUsed (b : Bus) (nv : Word) : (b.catchUp nv).pinsUsed = b.pinsUsed := rfl
@[simp] theorem Bus.catchUp_cfgPins (b : Bus) (nv : Word) : (b.catchUp nv).cfgPins = b.cfgPins := rfl
@[simp] theorem Bus.catchUp_cfgMode (b : Bus) (nv : Word) : (b.catchUp nv).cfgMode = b.cfgMode := rfl
@[simp] theorem Bus.catchUp_frames (b : Bus) (nv : Word) : (b.catchUp nv).frames = b.frames := rfl
@[simp] theorem Bus.catchUp_changes (b : Bus) (nv : Word) : (b.catchUp nv).changes = b.changes := rfl
@[simp] theorem Bus.catchUp_cb (b : Bus) (nv : Word) : (b.catchUp nv).cb = b.cb := rfl

/-! `Bus.storeFrame` -/

@[simp] theorem Bus.storeFrame_liw (b : Bus) (raw : Word) : (b.storeFrame raw).liw = b.liw := rfl
@[simp] theorem Bus.storeFrame_prev (b : Bus) (raw : Word) : (b.storeFrame raw).prev = b.prev := rfl
@[simp] theorem Bus.storeFrame_fb (b : Bus) (raw : Word) : (b.storeFrame raw).fb = raw := rfl
@[simp] theorem Bus.storeFrame_run (b : Bus) (raw : Word) : (b.storeFrame raw).run = b.run := rfl
@[simp] theorem Bus.storeFrame_interest (b : Bus) (raw : Word) : (b.storeFrame raw).interest = b.interest := rfl
@[simp] theorem Bus.storeFrame_hi (b : Bus) (raw : Word) : (b.storeFrame raw).hi = b.hi := rfl
@[simp] theorem Bus.storeFrame_pinsUsed (b : Bus) (raw : Word) : (b.storeFrame raw).pinsUsed = b.pinsUsed := rfl
@[simp] theorem Bus.storeFrame_cfgPins (b : Bus) (raw : Word) : (b.storeFrame raw).cfgPins = b.cfgPins := rfl
@[simp] theorem Bus.storeFrame_cfgMode (b : Bus) (raw : Word) : (b.storeFrame raw).cfgMode = b.cfgMode := rfl
@[simp] theorem Bus.storeFrame_frames (b : Bus) (raw : Word) : (b.storeFrame raw).frames = b.frames := rfl
@[simp] theorem Bus.storeFrame_changes (b : Bus) (raw : Word) : (b.storeFrame raw).changes = b.changes := rfl
@[simp] theorem Bus.storeFrame_cb (b : Bus) (raw : Word) : (b.storeFrame raw).cb = b.cb := rfl

/-! `Bus.countFrame` -/

@[simp] theorem Bus.countFrame_liw (b : Bus) : (b.countFrame).liw = b.liw := rfl
@[simp] theorem Bus.countFrame_prev (b : Bus) : (b.countFrame).prev = b.prev := rfl
@[simp] theorem Bus.countFrame_fb (b : Bus) : (b.countFrame).fb = b.fb := rfl
@[simp] theorem Bus.countFrame_run (b : Bus) : (b.countFrame).run = b.run := rfl
@[simp] theorem Bus.countFrame_interest (b : Bus) : (b.countFrame).interest = b.interest := rfl
@[simp] theorem Bus.countFrame_hi (b : Bus) : (b.countFrame).hi = b.hi := rfl
@[simp] theorem Bus.countFrame_pinsUsed (b : Bus) : (b.countFrame).pinsUsed = b.pinsUsed := rfl
@[simp] theorem Bus.countFrame_cfgPins (b : Bus) : (b.countFrame).cfgPins = b.cfgPins := rfl
@[simp] theorem Bus.countFrame_cfgMode (b : Bus) : (b.countFrame).cfgMode = b.cfgMode := rfl
@[simp] theorem Bus.countFrame_frames (b : Bus) : (b.countFrame).frames = b.frames + 1#32 := rfl
@[simp] theorem Bus.countFrame_changes (b : Bus) : (b.countFrame).changes = b.changes := rfl
@[simp] theorem Bus.countFrame_cb (b : Bus) : (b.countFrame).cb = b.cb := rfl

/-! `Bus.countChange` -/

@[simp] theorem Bus.countChange_liw (b : Bus) : (b.countChange).liw = b.liw := rfl
@[simp] theorem Bus.countChange_prev (b : Bus) : (b.countChange).prev = b.prev := rfl
@[simp] theorem Bus.countChange_fb (b : Bus) : (b.countChange).fb = b.fb := rfl
@[simp] theorem Bus.countChange_run (b : Bus) : (b.countChange).run = b.run := rfl
@[simp] theorem Bus.countChange_interest (b : Bus) : (b.countChange).interest = b.interest := rfl
@[simp] theorem Bus.countChange_hi (b : Bus) : (b.countChange).hi = b.hi := rfl
@[simp] theorem Bus.countChange_pinsUsed (b : Bus) : (b.countChange).pinsUsed = b.pinsUsed := rfl
@[simp] theorem Bus.countChange_cfgPins (b : Bus) : (b.countChange).cfgPins = b.cfgPins := rfl
@[simp] theorem Bus.countChange_cfgMode (b : Bus) : (b.countChange).cfgMode = b.cfgMode := rfl
@[simp] theorem Bus.countChange_frames (b : Bus) : (b.countChange).frames = b.frames := rfl
@[simp] theorem Bus.countChange_changes (b : Bus) : (b.countChange).changes = b.changes + 1#32 := rfl
@[simp] theorem Bus.countChange_cb (b : Bus) : (b.countChange).cb = b.cb := rfl

/-! `Bus.setRun` -/

@[simp] theorem Bus.setRun_liw (b : Bus) (r : Bool) : (b.setRun r).liw = b.liw := rfl
@[simp] theorem Bus.setRun_prev (b : Bus) (r : Bool) : (b.setRun r).prev = b.prev := rfl
@[simp] theorem Bus.setRun_fb (b : Bus) (r : Bool) : (b.setRun r).fb = b.fb := rfl
@[simp] theorem Bus.setRun_run (b : Bus) (r : Bool) : (b.setRun r).run = r := rfl
@[simp] theorem Bus.setRun_interest (b : Bus) (r : Bool) : (b.setRun r).interest = b.interest := rfl
@[simp] theorem Bus.setRun_hi (b : Bus) (r : Bool) : (b.setRun r).hi = b.hi := rfl
@[simp] theorem Bus.setRun_pinsUsed (b : Bus) (r : Bool) : (b.setRun r).pinsUsed = b.pinsUsed := rfl
@[simp] theorem Bus.setRun_cfgPins (b : Bus) (r : Bool) : (b.setRun r).cfgPins = b.cfgPins := rfl
@[simp] theorem Bus.setRun_cfgMode (b : Bus) (r : Bool) : (b.setRun r).cfgMode = b.cfgMode := rfl
@[simp] theorem Bus.setRun_frames (b : Bus) (r : Bool) : (b.setRun r).frames = b.frames := rfl
@[simp] theorem Bus.setRun_changes (b : Bus) (r : Bool) : (b.setRun r).changes = b.changes := rfl
@[simp] theorem Bus.setRun_cb (b : Bus) (r : Bool) : (b.setRun r).cb = b.cb := rfl

/-! `Bus.setCfgPins` -/

@[simp] theorem Bus.setCfgPins_liw (b : Bus) (w : BitVec 24) : (b.setCfgPins w).liw = b.liw := rfl
@[simp] theorem Bus.setCfgPins_prev (b : Bus) (w : BitVec 24) : (b.setCfgPins w).prev = b.prev := rfl
@[simp] theorem Bus.setCfgPins_fb (b : Bus) (w : BitVec 24) : (b.setCfgPins w).fb = b.fb := rfl
@[simp] theorem Bus.setCfgPins_run (b : Bus) (w : BitVec 24) : (b.setCfgPins w).run = b.run := rfl
@[simp] theorem Bus.setCfgPins_interest (b : Bus) (w : BitVec 24) : (b.setCfgPins w).interest = b.interest := rfl
@[simp] theorem Bus.setCfgPins_hi (b : Bus) (w : BitVec 24) : (b.setCfgPins w).hi = b.hi := rfl
@[simp] theorem Bus.setCfgPins_pinsUsed (b : Bus) (w : BitVec 24) : (b.setCfgPins w).pinsUsed = b.pinsUsed := rfl
@[simp] theorem Bus.setCfgPins_cfgPins (b : Bus) (w : BitVec 24) : (b.setCfgPins w).cfgPins = w := rfl
@[simp] theorem Bus.setCfgPins_cfgMode (b : Bus) (w : BitVec 24) : (b.setCfgPins w).cfgMode = b.cfgMode := rfl
@[simp] theorem Bus.setCfgPins_frames (b : Bus) (w : BitVec 24) : (b.setCfgPins w).frames = b.frames := rfl
@[simp] theorem Bus.setCfgPins_changes (b : Bus) (w : BitVec 24) : (b.setCfgPins w).changes = b.changes := rfl
@[simp] theorem Bus.setCfgPins_cb (b : Bus) (w : BitVec 24) : (b.setCfgPins w).cb = b.cb := rfl

/-! `Bus.setCfgMode` -/

@[simp] theorem Bus.setCfgMode_liw (b : Bus) (w : BitVec 9) : (b.setCfgMode w).liw = b.liw := rfl
@[simp] theorem Bus.setCfgMode_prev (b : Bus) (w : BitVec 9) : (b.setCfgMode w).prev = b.prev := rfl
@[simp] theorem Bus.setCfgMode_fb (b : Bus) (w : BitVec 9) : (b.setCfgMode w).fb = b.fb := rfl
@[simp] theorem Bus.setCfgMode_run (b : Bus) (w : BitVec 9) : (b.setCfgMode w).run = b.run := rfl
@[simp] theorem Bus.setCfgMode_interest (b : Bus) (w : BitVec 9) : (b.setCfgMode w).interest = b.interest := rfl
@[simp] theorem Bus.setCfgMode_hi (b : Bus) (w : BitVec 9) : (b.setCfgMode w).hi = b.hi := rfl
@[simp] theorem Bus.setCfgMode_pinsUsed (b : Bus) (w : BitVec 9) : (b.setCfgMode w).pinsUsed = b.pinsUsed := rfl
@[simp] theorem Bus.setCfgMode_cfgPins (b : Bus) (w : BitVec 9) : (b.setCfgMode w).cfgPins = b.cfgPins := rfl
@[simp] theorem Bus.setCfgMode_cfgMode (b : Bus) (w : BitVec 9) : (b.setCfgMode w).cfgMode = w := rfl
@[simp] theorem Bus.setCfgMode_frames (b : Bus) (w : BitVec 9) : (b.setCfgMode w).frames = b.frames := rfl
@[simp] theorem Bus.setCfgMode_changes (b : Bus) (w : BitVec 9) : (b.setCfgMode w).changes = b.changes := rfl
@[simp] theorem Bus.setCfgMode_cb (b : Bus) (w : BitVec 9) : (b.setCfgMode w).cb = b.cb := rfl

/-! `Bus.markUsed` -/

@[simp] theorem Bus.markUsed_liw (b : Bus) (pin : Nat) : (b.markUsed pin).liw = b.liw := rfl
@[simp] theorem Bus.markUsed_prev (b : Bus) (pin : Nat) : (b.markUsed pin).prev = b.prev := rfl
@[simp] theorem Bus.markUsed_fb (b : Bus) (pin : Nat) : (b.markUsed pin).fb = b.fb := rfl
@[simp] theorem Bus.markUsed_run (b : Bus) (pin : Nat) : (b.markUsed pin).run = b.run := rfl
@[simp] theorem Bus.markUsed_interest (b : Bus) (pin : Nat) : (b.markUsed pin).interest = b.interest := rfl
@[simp] theorem Bus.markUsed_hi (b : Bus) (pin : Nat) : (b.markUsed pin).hi = b.hi := rfl
@[simp] theorem Bus.markUsed_pinsUsed (b : Bus) (pin : Nat) : (b.markUsed pin).pinsUsed = setBit b.pinsUsed pin := rfl
@[simp] theorem Bus.markUsed_cfgPins (b : Bus) (pin : Nat) : (b.markUsed pin).cfgPins = b.cfgPins := rfl
@[simp] theorem Bus.markUsed_cfgMode (b : Bus) (pin : Nat) : (b.markUsed pin).cfgMode = b.cfgMode := rfl
@[simp] theorem Bus.markUsed_frames (b : Bus) (pin : Nat) : (b.markUsed pin).frames = b.frames := rfl
@[simp] theorem Bus.markUsed_changes (b : Bus) (pin : Nat) : (b.markUsed pin).changes = b.changes := rfl
@[simp] theorem Bus.markUsed_cb (b : Bus) (pin : Nat) : (b.markUsed pin).cb = b.cb := rfl

/-! `Bus.subscribe` -/

@[simp] theorem Bus.subscribe_liw (b : Bus) (sub : SubId) (pin : Nat) : (b.subscribe sub pin).liw = b.liw := rfl
@[simp] theorem Bus.subscribe_prev (b : Bus) (sub : SubId) (pin : Nat) : (b.subscribe sub pin).prev = b.prev := rfl
@[simp] theorem Bus.subscribe_fb (b : Bus) (sub : SubId) (pin : Nat) : (b.subscribe sub pin).fb = b.fb := rfl
@[simp] theorem Bus.subscribe_run (b : Bus) (sub : SubId) (pin : Nat) : (b.subscribe sub pin).run = b.run := rfl
@[simp] theorem Bus.subscribe_interest (b : Bus) (sub : SubId) (pin : Nat) : (b.subscribe sub pin).interest = setBit b.interest pin := rfl
@[simp] theorem Bus.subscribe_hi (b : Bus) (sub : SubId) (pin : Nat) : (b.subscribe sub pin).hi = raisedHi b.hi pin := rfl
@[simp] theorem Bus.subscribe_pinsUsed (b : Bus) (sub : SubId) (pin : Nat) : (b.subscribe sub pin).pinsUsed = b.pinsUsed := rfl
@[simp] theorem Bus.subscribe_cfgPins (b : Bus) (sub : SubId) (pin : Nat) : (b.subscribe sub pin).cfgPins = b.cfgPins := rfl
@[simp] theorem Bus.subscribe_cfgMode (b : Bus) (sub : SubId) (pin : Nat) : (b.subscribe sub pin).cfgMode = b.cfgMode := rfl
@[simp] theorem Bus.subscribe_frames (b : Bus) (sub : SubId) (pin : Nat) : (b.subscribe sub pin).frames = b.frames := rfl
@[simp] theorem Bus.subscribe_changes (b : Bus) (sub : SubId) (pin : Nat) : (b.subscribe sub pin).changes = b.changes := rfl
@[simp] theorem Bus.subscribe_cb (b : Bus) (sub : SubId) (pin : Nat) : (b.subscribe sub pin).cb = b.cb.setIfInBounds pin (some sub) := rfl

/-! `Bus.unsubscribe` -/

@[simp] theorem Bus.unsubscribe_liw (b : Bus) (pin : Nat) : (b.unsubscribe pin).liw = b.liw := rfl
@[simp] theorem Bus.unsubscribe_prev (b : Bus) (pin : Nat) : (b.unsubscribe pin).prev = b.prev := rfl
@[simp] theorem Bus.unsubscribe_fb (b : Bus) (pin : Nat) : (b.unsubscribe pin).fb = b.fb := rfl
@[simp] theorem Bus.unsubscribe_run (b : Bus) (pin : Nat) : (b.unsubscribe pin).run = b.run := rfl
@[simp] theorem Bus.unsubscribe_interest (b : Bus) (pin : Nat) : (b.unsubscribe pin).interest = clearBit b.interest pin := rfl
@[simp] theorem Bus.unsubscribe_hi (b : Bus) (pin : Nat) : (b.unsubscribe pin).hi = b.hi := rfl
@[simp] theorem Bus.unsubscribe_pinsUsed (b : Bus) (pin : Nat) : (b.unsubscribe pin).pinsUsed = b.pinsUsed := rfl
@[simp] theorem Bus.unsubscribe_cfgPins (b : Bus) (pin : Nat) : (b.unsubscribe pin).cfgPins = b.cfgPins := rfl
@[simp] theorem Bus.unsubscribe_cfgMode (b : Bus) (pin : Nat) : (b.unsubscribe pin).cfgMode = b.cfgMode := rfl
@[simp] theorem Bus.unsubscribe_frames (b : Bus) (pin : Nat) : (b.unsubscribe pin).frames = b.frames := rfl
@[simp] theorem Bus.unsubscribe_changes (b : Bus) (pin : Nat) : (b.unsubscribe pin).changes = b.changes := rfl
@[simp] theorem Bus.unsubscribe_cb (b : Bus) (pin : Nat) : (b.unsubscribe pin).cb = b.cb := rfl

/-! `Collab.setPosMask` -/

@[simp] theorem Collab.setPosMask_posMask (c : Collab) (w : Word) : (c.setPosMask w).posMask = w := rfl
@[simp] theorem Collab.setPosMask_negMask (c : Collab) (w : Word) : (c.setPosMask w).negMask = c.negMask := rfl
@[simp] theorem Collab.setPosMask_limitMask (c : Collab) (w : Word) : (c.setPosMask w).limitMask = c.limitMask := rfl
@[simp] theorem Collab.setPosMask_alarm (c : Collab) (w : Word) : (c.setPosMask w).alarm = c.alarm := rfl
@[simp] theorem Collab.setPosMask_sysState (c : Collab) (w : Word) : (c.setPosMask w).sysState = c.sysState := rfl
@[simp] theorem Collab.setPosMask_hardLimits (c : Collab) (w : Word) : (c.setPosMask w).hardLimits = c.hardLimits := rfl
@[simp] theorem Collab.setPosMask_ep (c : Collab) (w : Word) : (c.setPosMask w).ep = c.ep := rfl
@[simp] theorem Collab.setPosMask_estops (c : Collab) (w : Word) : (c.setPosMask w).estops = c.estops := rfl
@[simp] theorem Collab.setPosMask_envReads (c : Collab) (w : Word) : (c.setPosMask w).envReads = c.envReads := rfl
@[simp] theorem Collab.setPosMask_preempts (c : Collab) (w : Word) : (c.setPosMask w).preempts = c.preempts := rfl
@[simp] theorem Collab.setPosMask_supplied (c : Collab) (w : Word) : (c.setPosMask w).supplied = c.supplied := rfl
@[simp] theorem Collab.setPosMask_draws (c : Collab) (w : Word) : (c.setPosMask w).draws = c.draws := rfl

/-! `Collab.setNegMask` -/

@[simp] theorem Collab.setNegMask_posMask (c : Collab) (w : Word) : (c.setNegMask w).posMask = c.posMask := rfl
@[simp] theorem Collab.setNegMask_negMask (c : Collab) (w : Word) : (c.setNegMask w).negMask = w := rfl
@[simp] theorem Collab.setNegMask_limitMask (c : Collab) (w : Word) : (c.setNegMask w).limitMask = c.limitMask := rfl
@[simp] theorem Collab.setNegMask_alarm (c : Collab) (w : Word) : (c.setNegMask w).alarm = c.alarm := rfl
@[simp] theorem Collab.setNegMask_sysState (c : Collab) (w : Word) : (c.setNegMask w).sysState = c.sysState := rfl
@[simp] theorem Collab.setNegMask_hardLimits (c : Collab) (w : Word) : (c.setNegMask w).hardLimits = c.hardLimits := rfl
@[simp] theorem Collab.setNegMask_ep (c : Collab) (w : Word) : (c.setNegMask w).ep = c.ep := rfl
@[simp] theorem Collab.setNegMask_estops (c : Collab) (w : Word) : (c.setNegMask w).estops = c.estops := rfl
@[simp] theorem Collab.setNegMask_envReads (c : Collab) (w : Word) : (c.setNegMask w).envReads = c.envReads := rfl
@[simp] theorem Collab.setNegMask_preempts (c : Collab) (w : Word) : (c.setNegMask w).preempts = c.preempts := rfl
@[simp] theorem Collab.setNegMask_supplied (c : Collab) (w : Word) : (c.setNegMask w).supplied = c.supplied := rfl
@[simp] theorem Collab.setNegMask_draws (c : Collab) (w : Word) : (c.setNegMask w).draws = c.draws := rfl

/-! `Collab.orLimitMask` -/

@[simp] theorem Collab.orLimitMask_posMask (c : Collab) (m : Word) : (c.orLimitMask m).posMask = c.posMask := rfl
@[simp] theorem Collab.orLimitMask_negMask (c : Collab) (m : Word) : (c.orLimitMask m).negMask = c.negMask := rfl
@[simp] theorem Collab.orLimitMask_limitMask (c : Collab) (m : Word) : (c.orLimitMask m).limitMask = c.limitMask ||| m := rfl
@[simp] theorem Collab.orLimitMask_alarm (c : Collab) (m : Word) : (c.orLimitMask m).alarm = c.alarm := rfl
@[simp] theorem Collab.orLimitMask_sysState (c : Collab) (m : Word) : (c.orLimitMask m).sysState = c.sysState := rfl
@[simp] theorem Collab.orLimitMask_hardLimits (c : Collab) (m : Word) : (c.orLimitMask m).hardLimits = c.hardLimits := rfl
@[simp] theorem Collab.orLimitMask_ep (c : Collab) (m : Word) : (c.orLimitMask m).ep = c.ep := rfl
@[simp] theorem Collab.orLimitMask_estops (c : Collab) (m : Word) : (c.orLimitMask m).estops = c.estops := rfl
@[simp] theorem Collab.orLimitMask_envReads (c : Collab) (m : Word) : (c.orLimitMask m).envReads = c.envReads := rfl
@[simp] theorem Collab.orLimitMask_preempts (c : Collab) (m : Word) : (c.orLimitMask m).preempts = c.preempts := rfl
@[simp] theorem Collab.orLimitMask_supplied (c : Collab) (m : Word) : (c.orLimitMask m).supplied = c.supplied := rfl
@[simp] theorem Collab.orLimitMask_draws (c : Collab) (m : Word) : (c.orLimitMask m).draws = c.draws := rfl

/-! `Collab.setAlarm` -/

@[simp] theorem Collab.setAlarm_posMask (c : Collab) (a : Alarm) : (c.setAlarm a).posMask = c.posMask := rfl
@[simp] theorem Collab.setAlarm_negMask (c : Collab) (a : Alarm) : (c.setAlarm a).negMask = c.negMask := rfl
@[simp] theorem Collab.setAlarm_limitMask (c : Collab) (a : Alarm) : (c.setAlarm a).limitMask = c.limitMask := rfl
@[simp] theorem Collab.setAlarm_alarm (c : Collab) (a : Alarm) : (c.setAlarm a).alarm = a := rfl
@[simp] theorem Collab.setAlarm_sysState (c : Collab) (a : Alarm) : (c.setAlarm a).sysState = c.sysState := rfl
@[simp] theorem Collab.setAlarm_hardLimits (c : Collab) (a : Alarm) : (c.setAlarm a).hardLimits = c.hardLimits := rfl
@[simp] theorem Collab.setAlarm_ep (c : Collab) (a : Alarm) : (c.setAlarm a).ep = c.ep := rfl
@[simp] theorem Collab.setAlarm_estops (c : Collab) (a : Alarm) : (c.setAlarm a).estops = c.estops := rfl
@[simp] theorem Collab.setAlarm_envReads (c : Collab) (a : Alarm) : (c.setAlarm a).envReads = c.envReads := rfl
@[simp] theorem Collab.setAlarm_preempts (c : Collab) (a : Alarm) : (c.setAlarm a).preempts = c.preempts := rfl
@[simp] theorem Collab.setAlarm_supplied (c : Collab) (a : Alarm) : (c.setAlarm a).supplied = c.supplied := rfl
@[simp] theorem Collab.setAlarm_draws (c : Collab) (a : Alarm) : (c.setAlarm a).draws = c.draws := rfl

/-! `Collab.setSysState` -/

@[simp] theorem Collab.setSysState_posMask (c : Collab) (x : SysState) : (c.setSysState x).posMask = c.posMask := rfl
@[simp] theorem Collab.setSysState_negMask (c : Collab) (x : SysState) : (c.setSysState x).negMask = c.negMask := rfl
@[simp] theorem Collab.setSysState_limitMask (c : Collab) (x : SysState) : (c.setSysState x).limitMask = c.limitMask := rfl
@[simp] theorem Collab.setSysState_alarm (c : Collab) (x : SysState) : (c.setSysState x).alarm = c.alarm := rfl
@[simp] theorem Collab.setSysState_sysState (c : Collab) (x : SysState) : (c.setSysState x).sysState = x := rfl
@[simp] theorem Collab.setSysState_hardLimits (c : Collab) (x : SysState) : (c.setSysState x).hardLimits = c.hardLimits := rfl
@[simp] theorem Collab.setSysState_ep (c : Collab) (x : SysState) : (c.setSysState x).ep = c.ep := rfl
@[simp] theorem Collab.setSysState_estops (c : Collab) (x : SysState) : (c.setSysState x).estops = c.estops := rfl
@[simp] theorem Collab.setSysState_envReads (c : Collab) (x : SysState) : (c.setSysState x).envReads = c.envReads := rfl
@[simp] theorem Collab.setSysState_preempts (c : Collab) (x : SysState) : (c.setSysState x).preempts = c.preempts := rfl
@[simp] theorem Collab.setSysState_supplied (c : Collab) (x : SysState) : (c.setSysState x).supplied = c.supplied := rfl
@[simp] theorem Collab.setSysState_draws (c : Collab) (x : SysState) : (c.setSysState x).draws = c.draws := rfl

/-! `Collab.setHardLimits` -/

@[simp] theorem Collab.setHardLimits_posMask (c : Collab) (h : Bool) : (c.setHardLimits h).posMask = c.posMask := rfl
@[simp] theorem Collab.setHardLimits_negMask (c : Collab) (h : Bool) : (c.setHardLimits h).negMask = c.negMask := rfl
@[simp] theorem Collab.setHardLimits_limitMask (c : Collab) (h : Bool) : (c.setHardLimits h).limitMask = c.limitMask := rfl
@[simp] theorem Collab.setHardLimits_alarm (c : Collab) (h : Bool) : (c.setHardLimits h).alarm = c.alarm := rfl
@[simp] theorem Collab.setHardLimits_sysState (c : Collab) (h : Bool) : (c.setHardLimits h).sysState = c.sysState := rfl
@[simp] theorem Collab.setHardLimits_hardLimits (c : Collab) (h : Bool) : (c.setHardLimits h).hardLimits = h := rfl
@[simp] theorem Collab.setHardLimits_ep (c : Collab) (h : Bool) : (c.setHardLimits h).ep = c.ep := rfl
@[simp] theorem Collab.setHardLimits_estops (c : Collab) (h : Bool) : (c.setHardLimits h).estops = c.estops := rfl
@[simp] theorem Collab.setHardLimits_envReads (c : Collab) (h : Bool) : (c.setHardLimits h).envReads = c.envReads := rfl
@[simp] theorem Collab.setHardLimits_preempts (c : Collab) (h : Bool) : (c.setHardLimits h).preempts = c.preempts := rfl
@[simp] theorem Collab.setHardLimits_supplied (c : Collab) (h : Bool) : (c.setHardLimits h).supplied = c.supplied := rfl
@[simp] theorem Collab.setHardLimits_draws (c : Collab) (h : Bool) : (c.setHardLimits h).draws = c.draws := rfl

/-! `Collab.eStop` -/

@[simp] theorem Collab.eStop_posMask (c : Collab) : (c.eStop).posMask = c.posMask := rfl
@[simp] theorem Collab.eStop_negMask (c : Collab) : (c.eStop).negMask = c.negMask := rfl
@[simp] theorem Collab.eStop_limitMask (c : Collab) : (c.eStop).limitMask = c.limitMask := rfl
@[simp] theorem Collab.eStop_alarm (c : Collab) : (c.eStop).alarm = c.alarm := rfl
@[simp] theorem Collab.eStop_sysState (c : Collab) : (c.eStop).sysState = c.sysState := rfl
@[simp] theorem Collab.eStop_hardLimits (c : Collab) : (c.eStop).hardLimits = c.hardLimits := rfl
@[simp] theorem Collab.eStop_ep (c : Collab) : (c.eStop).ep = c.ep := rfl
@[simp] theorem Collab.eStop_estops (c : Collab) : (c.eStop).estops = c.estops + 1 := rfl
@[simp] theorem Collab.eStop_envReads (c : Collab) : (c.eStop).envReads = c.envReads := rfl
@[simp] theorem Collab.eStop_preempts (c : Collab) : (c.eStop).preempts = c.preempts := rfl
@[simp] theorem Collab.eStop_supplied (c : Collab) : (c.eStop).supplied = c.supplied := rfl
@[simp] theorem Collab.eStop_draws (c : Collab) : (c.eStop).draws = c.draws := rfl

/-! `Collab.setEndpoint` -/

@[simp] theorem Collab.setEndpoint_posMask (c : Collab) (sub : SubId) (e : Endpoint) : (c.setEndpoint sub e).posMask = c.posMask := rfl
@[simp] theorem Collab.setEndpoint_negMask (c : Collab) (sub : SubId) (e : Endpoint) : (c.setEndpoint sub e).negMask = c.negMask := rfl
@[simp] theorem Collab.setEndpoint_limitMask (c : Collab) (sub : SubId) (e : Endpoint) : (c.setEndpoint sub e).limitMask = c.limitMask := rfl
@[simp] theorem Collab.setEndpoint_alarm (c : Collab) (sub : SubId) (e : Endpoint) : (c.setEndpoint sub e).alarm = c.alarm := rfl
@[simp] theorem Collab.setEndpoint_sysState (c : Collab) (sub : SubId) (e : Endpoint) : (c.setEndpoint sub e).sysState = c.sysState := rfl
@[simp] theorem Collab.setEndpoint_hardLimits (c : Collab) (sub : SubId) (e : Endpoint) : (c.setEndpoint sub e).hardLimits = c.hardLimits := rfl
@[simp] theorem Collab.setEndpoint_ep (c : Collab) (sub : SubId) (e : Endpoint) : (c.setEndpoint sub e).ep = c.ep.setIfInBounds sub.toNat (some e) := rfl
@[simp] theorem Collab.setEndpoint_estops (c : Collab) (sub : SubId) (e : Endpoint) : (c.setEndpoint sub e).estops = c.estops := rfl
@[simp] theorem Collab.setEndpoint_envReads (c : Collab) (sub : SubId) (e : Endpoint) : (c.setEndpoint sub e).envReads = c.envReads := rfl
@[simp] theorem Collab.setEndpoint_preempts (c : Collab) (sub : SubId) (e : Endpoint) : (c.setEndpoint sub e).preempts = c.preempts := rfl
@[simp] theorem Collab.setEndpoint_supplied (c : Collab) (sub : SubId) (e : Endpoint) : (c.setEndpoint sub e).supplied = c.supplied := rfl
@[simp] theorem Collab.setEndpoint_draws (c : Collab) (sub : SubId) (e : Endpoint) : (c.setEndpoint sub e).draws = c.draws := rfl

/-! `Collab.recordRead` -/

@[simp] theorem Collab.recordRead_posMask (c : Collab) (r : SharedReg) : (c.recordRead r).posMask = c.posMask := rfl
@[simp] theorem Collab.recordRead_negMask (c : Collab) (r : SharedReg) : (c.recordRead r).negMask = c.negMask := rfl
@[simp] theorem Collab.recordRead_limitMask (c : Collab) (r : SharedReg) : (c.recordRead r).limitMask = c.limitMask := rfl
@[simp] theorem Collab.recordRead_alarm (c : Collab) (r : SharedReg) : (c.recordRead r).alarm = c.alarm := rfl
@[simp] theorem Collab.recordRead_sysState (c : Collab) (r : SharedReg) : (c.recordRead r).sysState = c.sysState := rfl
@[simp] theorem Collab.recordRead_hardLimits (c : Collab) (r : SharedReg) : (c.recordRead r).hardLimits = c.hardLimits := rfl
@[simp] theorem Collab.recordRead_ep (c : Collab) (r : SharedReg) : (c.recordRead r).ep = c.ep := rfl
@[simp] theorem Collab.recordRead_estops (c : Collab) (r : SharedReg) : (c.recordRead r).estops = c.estops := rfl
@[simp] theorem Collab.recordRead_envReads (c : Collab) (r : SharedReg) : (c.recordRead r).envReads = c.envReads ++ [(r, c.shared r)] := rfl
@[simp] theorem Collab.recordRead_preempts (c : Collab) (r : SharedReg) : (c.recordRead r).preempts = c.preempts := rfl
@[simp] theorem Collab.recordRead_supplied (c : Collab) (r : SharedReg) : (c.recordRead r).supplied = c.supplied := rfl
@[simp] theorem Collab.recordRead_draws (c : Collab) (r : SharedReg) : (c.recordRead r).draws = c.draws := rfl

/-! `Collab.setPreempts` -/

@[simp] theorem Collab.setPreempts_posMask (c : Collab) (l : List (List EnvStep)) : (c.setPreempts l).posMask = c.posMask := rfl
@[simp] theorem Collab.setPreempts_negMask (c : Collab) (l : List (List EnvStep)) : (c.setPreempts l).negMask = c.negMask := rfl
@[simp] theorem Collab.setPreempts_limitMask (c : Collab) (l : List (List EnvStep)) : (c.setPreempts l).limitMask = c.limitMask := rfl
@[simp] theorem Collab.setPreempts_alarm (c : Collab) (l : List (List EnvStep)) : (c.setPreempts l).alarm = c.alarm := rfl
@[simp] theorem Collab.setPreempts_sysState (c : Collab) (l : List (List EnvStep)) : (c.setPreempts l).sysState = c.sysState := rfl
@[simp] theorem Collab.setPreempts_hardLimits (c : Collab) (l : List (List EnvStep)) : (c.setPreempts l).hardLimits = c.hardLimits := rfl
@[simp] theorem Collab.setPreempts_ep (c : Collab) (l : List (List EnvStep)) : (c.setPreempts l).ep = c.ep := rfl
@[simp] theorem Collab.setPreempts_estops (c : Collab) (l : List (List EnvStep)) : (c.setPreempts l).estops = c.estops := rfl
@[simp] theorem Collab.setPreempts_envReads (c : Collab) (l : List (List EnvStep)) : (c.setPreempts l).envReads = c.envReads := rfl
@[simp] theorem Collab.setPreempts_preempts (c : Collab) (l : List (List EnvStep)) : (c.setPreempts l).preempts = l := rfl
@[simp] theorem Collab.setPreempts_supplied (c : Collab) (l : List (List EnvStep)) : (c.setPreempts l).supplied = c.supplied := rfl
@[simp] theorem Collab.setPreempts_draws (c : Collab) (l : List (List EnvStep)) : (c.setPreempts l).draws = c.draws := rfl

/-! `Collab.draw` -/

@[simp] theorem Collab.draw_posMask (c : Collab) : (c.draw).posMask = c.posMask := rfl
@[simp] theorem Collab.draw_negMask (c : Collab) : (c.draw).negMask = c.negMask := rfl
@[simp] theorem Collab.draw_limitMask (c : Collab) : (c.draw).limitMask = c.limitMask := rfl
@[simp] theorem Collab.draw_alarm (c : Collab) : (c.draw).alarm = c.alarm := rfl
@[simp] theorem Collab.draw_sysState (c : Collab) : (c.draw).sysState = c.sysState := rfl
@[simp] theorem Collab.draw_hardLimits (c : Collab) : (c.draw).hardLimits = c.hardLimits := rfl
@[simp] theorem Collab.draw_ep (c : Collab) : (c.draw).ep = c.ep := rfl
@[simp] theorem Collab.draw_estops (c : Collab) : (c.draw).estops = c.estops := rfl
@[simp] theorem Collab.draw_envReads (c : Collab) : (c.draw).envReads = c.envReads := rfl
@[simp] theorem Collab.draw_preempts (c : Collab) : (c.draw).preempts = c.preempts := rfl
@[simp] theorem Collab.draw_supplied (c : Collab) : (c.draw).supplied = c.supplied := rfl
@[simp] theorem Collab.draw_draws (c : Collab) : (c.draw).draws = c.draws + 1 := rfl

end Sys2Proof.Machine
end

