-- ==== Sys2Proof/Laws/Ops.lean ====
section
/-! SUPPORT. For each shared operation, what it can do, said once. -/

namespace Sys2Proof.Machine

/-! ### Bits and fields -/

/-- A set bit: bit `i` becomes 1 and no other bit changes. -/
theorem setBit_getLsbD (w : Word) (i j : Nat) (hi : i < 32) :
    (setBit w i).getLsbD j = (w.getLsbD j || decide (i = j)) := by
  simp [setBit, hi]

/-- A cleared bit: bit `i` becomes 0 and no other bit changes. -/
theorem clearBit_getLsbD (w : Word) (i j : Nat) :
    (clearBit w i).getLsbD j = (w.getLsbD j && decide (i ≠ j)) := by
  by_cases hj : j < 32
  · by_cases hij : i = j
    · subst hij; simp [clearBit, hj]
    · simp [clearBit, hj, hij, Ne.symm hij]
  · simp [clearBit, BitVec.getLsbD_of_ge _ _ (Nat.le_of_not_lt hj)]

/-- The low `n` bits, and 0 above them. -/
theorem lowBits_getLsbD (n : Nat) (w : Word) (j : Nat) :
    (lowBits n w).getLsbD j = (decide (j < n) && w.getLsbD j) := by
  by_cases hj : j < 32
  · simp [lowBits, hj]
  · simp [lowBits, BitVec.getLsbD_of_ge _ _ (Nat.le_of_not_lt hj)]

/-- The edge comparators, lane by lane (R173). -/
theorem edgeDiff_getLsbD (prev nv : Word) (i : Nat) :
    (edgeDiff prev nv).getLsbD i = (prev.getLsbD i != nv.getLsbD i) := by
  simp [edgeDiff]

/-- `HI` after an attach, as a number (R80): it fits its 6 bits. -/
theorem raisedHi_toNat (hi : BitVec 6) (pin : Nat) (h : pin < 63) :
    (raisedHi hi pin).toNat = max hi.toNat (pin + 1) := by
  have := hi.isLt
  simp only [raisedHi, BitVec.toNat_ofNat]
  omega

/-- An entry of `CB` after an attach. -/
theorem cbAt_subscribe (b : Bus) (sub : SubId) (pin j : Nat) :
    (b.subscribe sub pin).cbAt j = if pin = j ∧ pin < 32 then some sub else b.cbAt j := by
  simp only [Bus.cbAt, Bus.subscribe_cb, Vector.getElem?_setIfInBounds]
  by_cases h1 : pin = j
  · by_cases h2 : pin < 32
    · simp [h1, h1 ▸ h2]
    · subst h1; simp [h2]
  · simp [h1]

/-- `EP` after a record is written. -/
theorem endpoint_setEndpoint (c : Collab) (sub sub' : SubId) (e : Endpoint) :
    (c.setEndpoint sub e).endpoint sub' = if sub = sub' then some e else c.endpoint sub' := by
  have hlt : sub.toNat < 256 := sub.isLt
  simp only [Collab.endpoint, Collab.setEndpoint_ep, Vector.getElem?_setIfInBounds]
  by_cases h : sub = sub'
  · subst h; simp [hlt]
  · have : sub.toNat ≠ sub'.toNat := fun h' => h (BitVec.eq_of_toNat_eq h')
    simp [h, this]

/-! ### The port -/

/-- How a command on the block's registers ends: always in a next state. -/
theorem answer_next (r : Except Status (Bus × Word)) (s t : State) (h : answer r s = .next t) :
    (∃ b d, r = .ok (b, d) ∧ t = (s.withBus b).respond .ok d) ∨
      (∃ st, r = .error st ∧ t = s.respond st 0#32) := by
  cases r with
  | ok p => exact .inl ⟨p.1, p.2, rfl, by simpa [answer, accept] using h.symm⟩
  | error st => exact .inr ⟨st, rfl, by simpa [answer, refuse] using h.symm⟩

/-! The fields of an answered state (`reply`, Safety.lean). -/

@[simp] theorem reply_bus (st : BitVec 4) (d : Word) (s : State) : (reply st d s).bus = s.bus := rfl
@[simp] theorem reply_col (st : BitVec 4) (d : Word) (s : State) : (reply st d s).col = s.col := rfl
@[simp] theorem reply_events (st : BitVec 4) (d : Word) (s : State) : (reply st d s).events = s.events := rfl
@[simp] theorem reply_responses (st : BitVec 4) (d : Word) (s : State) :
    (reply st d s).responses = s.responses ++ [fieldAt 36 32 st ||| fieldAt 36 0 d] := rfl
@[simp] theorem reply_leOutcomes (st : BitVec 4) (d : Word) (s : State) :
    (reply st d s).leOutcomes = s.leOutcomes := rfl
@[simp] theorem reply_inputs (st : BitVec 4) (d : Word) (s : State) :
    (reply st d s).inputs = s.inputs.tail := rfl

/-- A response of the model is the port's answer of Safety.lean. -/
theorem respond_eq_reply (s : State) (st : Status) (d : Word) :
    s.respond st d = reply (Status.code st) d s := rfl

/-- `ATTACH` on the registers: refused exactly for a pin that is not wired (R166). -/
theorem attachBus_cases (sub : SubId) (pin : Nat) (b : Bus) :
    (b.wiredBits ≤ pin ∧ attachBus sub pin b = .error .pinRange) ∨
      (pin < b.wiredBits ∧ attachBus sub pin b = .ok (b.subscribe sub pin)) := by
  by_cases h : b.wiredBits ≤ pin
  · exact .inl ⟨h, by simp [attachBus, h]⟩
  · exact .inr ⟨Nat.lt_of_not_le h, by simp [attachBus, h]⟩

/-! ### Handlers

A handler and every step of the environment write the masks, `ALARM`, `SYS_STATE`, `HARD_LIMITS`,
`ESTOPS` and the model's own fields; never `EP`, `LIMIT_MASK` or the list of supplied handlers. -/

/-- The words no handler and no environment step writes. -/
def Collab.fixed (c : Collab) : Vector (Option Endpoint) 256 × Word × List SubId :=
  (c.ep, c.limitMask, c.supplied)

theorem leWritePos_fixed (ep : Endpoint) (lvl : Bool) (c : Collab) :
    (leWritePos ep lvl c).fixed = c.fixed := by
  unfold leWritePos; split <;> rfl

theorem leWriteNeg_fixed (ep : Endpoint) (lvl : Bool) (c : Collab) :
    (leWriteNeg ep lvl c).fixed = c.fixed := by
  unfold leWriteNeg; split <;> rfl

theorem leRaise_fixed (c : Collab) : (leRaise c).fixed = c.fixed := by
  unfold leRaise; split <;> rfl

theorem leOnLevel_fixed (slot : Collab → Collab) (hs : ∀ c, (slot c).fixed = c.fixed)
    (ep : Endpoint) (lvl : Bool) (c : Collab) : (leOnLevel slot ep lvl c).fixed = c.fixed := by
  have hA : (leWriteNeg ep lvl (slot (leWritePos ep lvl (slot c)))).fixed = c.fixed := by
    rw [leWriteNeg_fixed, hs, leWritePos_fixed, hs]
  unfold leOnLevel
  split
  · cases lvl
    · simpa using hA
    · dsimp only
      simp only [if_true]
      split
      · rw [leRaise_fixed, hs, hs, hA]
      · rw [hs, hA]
  · rfl

theorem nativeChangeOne_fixed (n : PinId) (level : Bool) (c : Collab) (sub : SubId) :
    (nativeChangeOne n level c sub).fixed = c.fixed := by
  unfold nativeChangeOne
  split
  · split
    · exact leOnLevel_fixed id (fun _ => rfl) _ _ _
    · rfl
  · rfl

theorem nativeChange_fixed (n : PinId) (level : Bool) (c : Collab) :
    (nativeChange n level c).fixed = c.fixed := by
  unfold nativeChange
  generalize allSubs = l
  induction l generalizing c with
  | nil => rfl
  | cons a l ih => rw [List.foldl_cons, ih, nativeChangeOne_fixed]

theorem casAlarm_fixed (c : Collab) (a : Alarm) : (c.casAlarm a).fixed = c.fixed := by
  unfold Collab.casAlarm; split <;> rfl

theorem envStep_fixed (e : EnvStep) (c : Collab) : (envStep e c).fixed = c.fixed := by
  cases e with
  | nativeChange n level => exact nativeChange_fixed n level c
  | latchAlarm a => exact casAlarm_fixed c a
  | setSysState x => rfl
  | setHardLimits b => rfl
  | clearAlarm => rfl
  | read r => rfl

theorem envSteps_fixed (es : List EnvStep) (c : Collab) : (envSteps es c).fixed = c.fixed := by
  induction es generalizing c with
  | nil => rfl
  | cons e es ih => exact (ih (envStep e c)).trans (envStep_fixed e c)

theorem preemptSlot_fixed (c : Collab) : (preemptSlot c).fixed = c.fixed := by
  unfold preemptSlot
  split
  · rfl
  · exact envSteps_fixed _ _

theorem readLevel_fixed (liw : Word) (src : Source) (c : Collab) :
    (readLevel liw src c).2.fixed = c.fixed := by
  cases src <;> rfl

theorem leOnEdge_fixed (slot : Collab → Collab) (hs : ∀ c, (slot c).fixed = c.fixed)
    (liw : Word) (ep : Endpoint) (c : Collab) : (leOnEdge slot liw ep c).fixed = c.fixed := by
  unfold leOnEdge
  rw [leOnLevel_fixed slot hs, readLevel_fixed, hs]

theorem applyEffect_fixed (e : Config.HandlerEffect) (c : Collab) :
    (applyEffect e c).fixed = c.fixed := by
  unfold applyEffect
  dsimp only
  have h := casAlarm_fixed ((c.setPosMask (maskWrite true e.setPos (maskWrite false e.clearPos c.posMask))).setNegMask
    (maskWrite true e.setNeg (maskWrite false e.clearNeg
      (c.setPosMask (maskWrite true e.setPos (maskWrite false e.clearPos c.posMask))).negMask))) e.cause
  split
  · exact h
  · exact h

/-- No handler writes an endpoint record, `LIMIT_MASK` or the parameter `supplied`. -/
theorem runHandler_fixed (slot : Collab → Collab) (hs : ∀ c, (slot c).fixed = c.fixed) (liw : Word)
    (sub : SubId) (pin : Nat) (lvl : Bool) (c : Collab) :
    (runHandler slot liw sub pin lvl c).fixed = c.fixed := by
  unfold runHandler
  split
  · exact leOnEdge_fixed slot hs liw _ c
  · split
    · exact (applyEffect_fixed _ _).trans (hs c)
    · rfl

/-! ### Reconciliation -/

/-- What a scan leaves alone: everything but the collaborators' state and `EVENTS`. -/
theorem dispatch_frame (slot : Collab → Collab) (nv diff : Word) (l : List Nat) (s t : State)
    (h : dispatch slot nv diff l s = .ok t) :
    t.bus = s.bus ∧ t.responses = s.responses ∧ t.leOutcomes = s.leOutcomes ∧ t.inputs = s.inputs := by
  induction l generalizing s with
  | nil => simp only [dispatch, Except.ok.injEq] at h; subst h; exact ⟨rfl, rfl, rfl, rfl⟩
  | cons i l ih =>
    simp only [dispatch] at h
    split at h
    · split at h
      · cases h
      · have := ih _ h
        exact this
    · exact ih _ h

/-- What a scan does to the endpoint records, `LIMIT_MASK` and `supplied`: nothing. -/
theorem dispatch_fixed (slot : Collab → Collab) (hs : ∀ c, (slot c).fixed = c.fixed) (nv diff : Word)
    (l : List Nat) (s t : State) (h : dispatch slot nv diff l s = .ok t) :
    t.col.fixed = s.col.fixed := by
  induction l generalizing s with
  | nil => simp only [dispatch, Except.ok.injEq] at h; subst h; rfl
  | cons i l ih =>
    simp only [dispatch] at h
    split at h
    · split at h
      · cases h
      · rename_i sub _
        have := ih (invoke slot nv sub i s) h
        rw [this]
        exact runHandler_fixed slot hs _ _ _ _ _
    · exact ih _ h

/-- The records a scan of the pins `l` makes (R172). -/
def scanned (b : Bus) (nv diff : Word) (l : List Nat) : List Event :=
  (l.filter fun i => b.interest.getLsbD i && diff.getLsbD i).filterMap fun i =>
    (b.cbAt i).map fun sub => ⟨sub, i, nv.getLsbD i⟩

/-- Everything a completed scan does: it records its events in order and runs their handlers (R174). -/
theorem dispatch_spec (slot : Collab → Collab) (nv diff : Word) (l : List Nat) (s t : State)
    (h : dispatch slot nv diff l s = .ok t) :
    t = { s with
          events := s.events ++ scanned s.bus nv diff l
          col := handled slot s.bus.liw (scanned s.bus nv diff l) s.col } := by
  induction l generalizing s with
  | nil => simp only [dispatch, Except.ok.injEq] at h; subst h; simp [scanned, handled]
  | cons i l ih =>
    simp only [dispatch] at h
    split at h <;> rename_i hi
    · split at h
      · cases h
      · rename_i sub hsub
        rw [ih _ h]
        simp [scanned, handled, hi, hsub, invoke]
    · rw [ih _ h]
      simp [scanned, hi]

/-- The records of the scan inside `Reconcile` are the ones the reconciliation owes (R172, R174). -/
theorem scanned_eq_owedEvents (b : Bus) (nv : Word) :
    scanned b nv (edgeDiff b.prev nv) (List.range b.hi.toNat) = owedEvents b nv := by
  simp only [scanned, owedEvents, owedPins, edgeDiff_getLsbD]

/-- A scan completes when every interested pin has a subscriber (R38 (d)). -/
theorem dispatch_ok (slot : Collab → Collab) (nv diff : Word) (l : List Nat) (s : State)
    (hsub : ∀ i, s.bus.interest.getLsbD i = true → ∃ sub, s.bus.cbAt i = some sub) :
    ∃ t, dispatch slot nv diff l s = .ok t := by
  induction l generalizing s with
  | nil => exact ⟨s, rfl⟩
  | cons i l ih =>
    simp only [dispatch]
    split
    · rename_i hi
      obtain ⟨sub, hsub'⟩ := hsub i (by simp at hi; exact hi.1)
      rw [hsub']
      exact ih _ hsub
    · exact ih _ hsub

/-- What a completed reconciliation does to everything but the collaborators and `EVENTS` (R172). -/
theorem reconcile_frame (slot : Collab → Collab) (nv : Word) (s t : State)
    (h : reconcile slot nv s = .ok t) :
    t.bus = (s.bus.commit nv).catchUp nv ∧ t.responses = s.responses ∧
      t.leOutcomes = s.leOutcomes ∧ t.inputs = s.inputs := by
  unfold reconcile at h
  dsimp only at h
  split at h
  · rename_i u hu
    obtain ⟨h1, h2, h3, h4⟩ := dispatch_frame _ _ _ _ _ _ hu
    simp only [Except.ok.injEq] at h
    subst h
    exact ⟨by simp [h1], h2, h3, h4⟩
  · cases h

/-- Everything a completed reconciliation does (R172). -/
theorem reconcile_spec (slot : Collab → Collab) (nv : Word) (s t : State)
    (h : reconcile slot nv s = .ok t) :
    t = { s with
          bus := { s.bus with liw := nv, prev := nv }
          events := s.events ++ owedEvents s.bus nv
          col := handled slot nv (owedEvents s.bus nv) s.col } := by
  unfold reconcile at h
  dsimp only at h
  split at h
  · rename_i u hu
    have hd := dispatch_spec _ _ _ _ _ _ hu
    have he := scanned_eq_owedEvents s.bus nv
    simp only [scanned, State.withBus_bus, Bus.commit, Bus.cbAt] at hd he
    simp only [he] at hd
    simp only [Except.ok.injEq] at h
    subst h
    rw [hd]
    rfl
  · cases h

/-- A reconciliation writes no endpoint record, not `LIMIT_MASK` and not `supplied`. -/
theorem reconcile_fixed (slot : Collab → Collab) (hs : ∀ c, (slot c).fixed = c.fixed) (nv : Word)
    (s t : State) (h : reconcile slot nv s = .ok t) : t.col.fixed = s.col.fixed := by
  unfold reconcile at h
  dsimp only at h
  split at h
  · rename_i u hu
    simp only [Except.ok.injEq] at h
    subst h
    have := dispatch_fixed slot hs _ _ _ (s.withBus (s.bus.commit nv)) u hu
    simpa using this
  · cases h

/-- A reconciliation completes when every interested pin has a subscriber. -/
theorem reconcile_ok (slot : Collab → Collab) (nv : Word) (s : State)
    (hsub : ∀ i, s.bus.interest.getLsbD i = true → ∃ sub, s.bus.cbAt i = some sub) :
    ∃ t, reconcile slot nv s = .ok t := by
  obtain ⟨t, ht⟩ := dispatch_ok slot nv (edgeDiff s.bus.prev nv)
    (List.range s.bus.hi.toNat) (s.withBus (s.bus.commit nv)) hsub
  exact ⟨t.withBus (t.bus.catchUp nv), by simp [reconcile, ht]⟩

end Sys2Proof.Machine
end

