-- ==== Sys2Proof/Laws/Exec.lean ====
section
/-! SUPPORT. What each command is, over the shared operations. -/

namespace Sys2Proof.Machine

theorem exec_cfgPins (clk latch data : PinId) (s : State) :
    exec (.cfgPins clk latch data) s = answer (cfgPinsBus clk latch data s.bus) s := rfl

theorem exec_cfgMode (shiftIn : Bool) (chips : Nat) (s : State) :
    exec (.cfgMode shiftIn chips) s = answer (cfgModeBus shiftIn chips s.bus) s := rfl

theorem exec_start (s : State) :
    exec .start s = answer (if s.bus.run then .error .running
      else if s.bus.configured then .ok (s.bus.setRun true, 0#32) else .error .notConfigured) s := rfl

theorem exec_stop (s : State) :
    exec .stop s = answer (if s.bus.run then .ok (s.bus.setRun false, 0#32)
      else .error .notRunning) s := rfl

theorem exec_attach (sub : SubId) (pin : Nat) (s : State) :
    exec (.attach sub pin) s = answer ((attachBus sub pin s.bus).map fun b => (b, 0#32)) s := rfl

theorem exec_detach (pin : Nat) (s : State) :
    exec (.detach pin) s = answer (.ok (s.bus.unsubscribe pin, 0#32)) s := rfl

theorem exec_readValue (s : State) : exec .readValue s = answer (.ok (s.bus, s.bus.liw)) s := rfl

theorem exec_setPinUsed (pin : Nat) (s : State) :
    exec (.setPinUsed pin) s = answer (.ok (s.bus.markUsed pin, 0#32)) s := rfl

theorem exec_getPinsUsed (s : State) : exec .getPinsUsed s = answer (.ok (s.bus, s.bus.pinsUsed)) s := rfl

theorem exec_rdreg (reg : Nat) (s : State) : exec (.rdreg reg) s = answer (rdregBus reg s.bus) s := rfl

/-- What `RECONCILE` can do: it is refused while a sampler is started, else it reconciles (R170). -/
theorem exec_reconcile_cases (value : Word) (s t : State) (h : exec (.reconcile value) s = .next t) :
    (s.bus.run = true ∧ t = s.respond .running 0#32) ∨
      (s.bus.run = false ∧ ∃ u, reconcile preemptSlot value s = .ok u ∧ t = u.respond .ok 0#32) := by
  simp only [exec, execReconcile] at h
  split at h <;> rename_i hrun
  · exact .inl ⟨hrun, by simpa [refuse] using h.symm⟩
  · cases hr : reconcile preemptSlot value s with
    | error f => simp [hr, Except.map, outcomeOf] at h
    | ok u =>
      refine .inr ⟨Bool.eq_false_iff.mpr hrun, u, rfl, ?_⟩
      simpa [hr, Except.map, outcomeOf, accept] using h.symm

end Sys2Proof.Machine
end

