-- ==== Sys2Proof/Laws/Handlers.lean ====
section
/-! SUPPORT. What the pieces of the edge handlers, of the environment's steps and of the frame assembly do,
said once. -/

namespace Sys2Proof.Machine

/-! ### The parts a handler writes -/

/-- A mask write, bit by bit: the bits of `m` take the level, every other bit stays (R206). -/
theorem maskWrite_getLsbD (lvl : Bool) (m w : Word) (j : Nat) :
    (maskWrite lvl m w).getLsbD j = if m.getLsbD j then lvl else w.getLsbD j := by
  cases lvl
  · by_cases hj : j < 32
    · cases hm : m.getLsbD j <;> simp [maskWrite, BitVec.getLsbD_and, BitVec.getLsbD_not, hj, hm, -BitVec.getLsbD_eq_getElem]
    · simp [maskWrite, BitVec.getLsbD_of_ge _ _ (Nat.le_of_not_lt hj)]
  · cases hm : m.getLsbD j <;> simp [maskWrite, hm]

/-- Line A5: with no cause recorded it records one and stops once more; else it does nothing (R206). -/
theorem leRaise_eq (c : Collab) :
    leRaise c = if c.alarm = 0#8 then { c with alarm := 1#8, estops := c.estops + 1 } else c := rfl

/-- The compare-and-swap on `ALARM` (R77). -/
theorem casAlarm_eq (c : Collab) (a : Alarm) :
    c.casAlarm a = if c.alarm = 0#8 then { c with alarm := a } else c := rfl

/-- `alarmArmed` in the rule's words (R206 line A4). -/
theorem alarmArmed_iff (c : Collab) :
    c.alarmArmed = true ↔ c.sysState = .other ∧ c.hardLimits = true := by
  cases hs : c.sysState <;> simp [Collab.alarmArmed, alarmSuppressed, hs]

/-- The handler in interrupt context: the mask writes, then line A5 exactly on an armed activation. -/
theorem leOnLevel_id (ep : Endpoint) (lvl : Bool) (c : Collab) :
    leOnLevel id ep lvl c =
      if ep.participates then
        if lvl && c.alarmArmed then leRaise (leWriteNeg ep lvl (leWritePos ep lvl c))
        else leWriteNeg ep lvl (leWritePos ep lvl c)
      else c := by
  have ha : (leWriteNeg ep lvl (leWritePos ep lvl c)).alarmArmed = c.alarmArmed := by
    unfold leWriteNeg leWritePos
    split <;> split <;> rfl
  unfold leOnLevel
  cases lvl <;> simp [ha]

/-- What the two mask writes leave alone. -/
theorem leWrites_frame (ep : Endpoint) (lvl : Bool) (c : Collab) :
    leWriteNeg ep lvl (leWritePos ep lvl c) =
      { c with
        posMask := (leWriteNeg ep lvl (leWritePos ep lvl c)).posMask
        negMask := (leWriteNeg ep lvl (leWritePos ep lvl c)).negMask } := by
  unfold leWriteNeg leWritePos
  split <;> split <;> rfl

/-- A property of the collaborators that survives every write of a handler's lines and every slot
between them survives the handler (R206). -/
theorem leOnLevel_keeps (P : Collab → Prop) (hpos : ∀ c w, P c → P (c.setPosMask w))
    (hneg : ∀ c w, P c → P (c.setNegMask w)) (slot : Collab → Collab) (hslot : ∀ c, P c → P (slot c))
    (hraise : ∀ c, P c → c.alarmArmed = true → P (leRaise (slot c)))
    (ep : Endpoint) (lvl : Bool) (c : Collab) (hc : P c) : P (leOnLevel slot ep lvl c) := by
  have hp : ∀ c, P c → P (leWritePos ep lvl c) := by
    intro c hc; unfold leWritePos; split
    · exact hpos _ _ hc
    · exact hc
  have hn : ∀ c, P c → P (leWriteNeg ep lvl c) := by
    intro c hc; unfold leWriteNeg; split
    · exact hneg _ _ hc
    · exact hc
  have hx := hn _ (hslot _ (hp _ (hslot _ hc)))
  unfold leOnLevel
  split
  · dsimp only
    split
    · split
      · exact hraise _ (hslot _ hx) (by assumption)
      · exact hslot _ hx
    · exact hx
  · exact hc

/-! ### The environment's steps -/

/-- No step of a native pin changes the environment's remaining choices (R210). -/
theorem nativeChange_preempts (n : PinId) (lvl : Bool) (c : Collab) :
    (nativeChange n lvl c).preempts = c.preempts := by
  refine List.foldlRecOn (motive := fun d : Collab => d.preempts = c.preempts) allSubs _ rfl ?_
  intro d hd sub _
  unfold nativeChangeOne
  split
  · split
    · refine leOnLevel_keeps (fun d => d.preempts = c.preempts) (fun _ _ h => h) (fun _ _ h => h) id
        (fun _ h => h) (fun d h _ => ?_) _ _ _ hd
      rw [id, leRaise_eq]
      split
      · exact h
      · exact h
    · exact hd
  · exact hd

/-- No step of the environment changes its remaining choices. -/
theorem envStep_preempts (e : EnvStep) (c : Collab) : (envStep e c).preempts = c.preempts := by
  cases e with
  | nativeChange n lvl => exact nativeChange_preempts n lvl c
  | latchAlarm a =>
    simp only [envStep, casAlarm_eq]
    split <;> rfl
  | _ => rfl

/-- What the slot before an action does in a context whose steps are all `allowed`: the context stays such
a one, and a property that the allowed steps keep is kept (R72, R73). -/
theorem InContext.keeps {allowed : EnvStep → Prop} {slot : Collab → Collab} (P : Collab → Prop)
    (hpre : ∀ c l, P c → P (c.setPreempts l)) (henv : ∀ e c, allowed e → P c → P (envStep e c))
    {c : Collab} (h : InContext allowed slot c) (hc : P c) :
    InContext allowed slot (slot c) ∧ P (slot c) := by
  have steps : ∀ (es : List EnvStep) (d : Collab), (∀ e ∈ es, allowed e) → P d →
      P (envSteps es d) ∧ (envSteps es d).preempts = d.preempts := by
    intro es
    induction es with
    | nil => exact fun d _ hd => ⟨hd, rfl⟩
    | cons e es ih =>
      intro d ha hd
      obtain ⟨h1, h2⟩ := ih (envStep e d) (fun x hx => ha x (List.mem_cons_of_mem _ hx))
        (henv e d (ha e List.mem_cons_self) hd)
      exact ⟨h1, h2.trans (envStep_preempts e d)⟩
  obtain rfl | ⟨rfl, ha⟩ := h
  · exact ⟨.inl rfl, hc⟩
  · unfold preemptSlot
    split
    · exact ⟨.inr ⟨rfl, ha⟩, hc⟩
    · rename_i es rest he
      rw [he] at ha
      obtain ⟨h1, h2⟩ := steps es (c.setPreempts rest) (ha es List.mem_cons_self) (hpre c rest hc)
      refine ⟨.inr ⟨rfl, ?_⟩, h1⟩
      rw [h2]
      exact fun x hx => ha x (List.mem_cons_of_mem _ hx)

/-- A context is one of the remaining choices alone. -/
theorem InContext.of_preempts {allowed : EnvStep → Prop} {slot : Collab → Collab} {c d : Collab}
    (h : InContext allowed slot c) (he : d.preempts = c.preempts) : InContext allowed slot d := by
  unfold InContext at *
  rwa [he]

/-- Where the environment chooses nothing, nothing falls between two actions. -/
theorem preemptSlot_nil (c : Collab) (h : c.preempts = []) : preemptSlot c = c := by
  unfold preemptSlot
  rw [h]

/-- A step of the collaborators that keeps `fixed` keeps every endpoint. -/
theorem endpoint_of_fixed (c d : Collab) (h : d.fixed = c.fixed) (sub : SubId) :
    d.endpoint sub = c.endpoint sub := by
  simp only [Collab.fixed, Prod.mk.injEq] at h
  simp only [Collab.endpoint, h.1]

/-- Every subscriber identifier is visited by a native pin change (R210). -/
theorem mem_allSubs (sub : SubId) : sub ∈ allSubs := by
  simp only [allSubs, List.mem_map, List.mem_range]
  exact ⟨sub.toNat, sub.isLt, by simp⟩

/-- A native pin change visits no identifier twice (R210). -/
theorem allSubs_nodup : allSubs.Nodup := by
  refine List.Nodup.map_on ?_ List.nodup_range
  intro x hx y hy h
  simp only [List.mem_range] at hx hy
  have := congrArg BitVec.toNat h
  simp only [BitVec.toNat_ofNat] at this
  omega

/-- A scan of the handlers bound to a native pin, none of which is attached, does nothing. -/
theorem nativeChangeOne_skip (n : PinId) (lvl : Bool) (c : Collab) (sub : SubId)
    (h : ∀ ep, c.endpoint sub = some ep → ep.source = .native n → ep.attached = false) :
    nativeChangeOne n lvl c sub = c := by
  unfold nativeChangeOne
  split
  · rename_i ep hep
    split
    · rename_i hc
      have := h ep hep hc.1
      simp [this] at hc
    · rfl
  · rfl

/-! ### Frames -/

/-- One bit arriving at the assembled word, bit by bit (R63). -/
theorem shiftInBit_getLsbD (acc : Word) (b : Bool) (j : Nat) :
    (shiftInBit acc b).getLsbD j =
      if j = 0 then b else (decide (j < 32) && acc.getLsbD (j - 1)) := by
  by_cases h : j = 0
  · subst h; cases b <;> simp [shiftInBit]
  · by_cases h2 : j < 32
    · have h3 : ¬ j < 1 := by omega
      simp [shiftInBit, h, h2, h3, BitVec.getLsbD_eq_getElem (show j - 1 < 32 by omega)]
    · simp only [h, h2, if_false, decide_false, Bool.false_and]
      exact BitVec.getLsbD_of_ge _ _ (by omega)

/-- The length of a frame. -/
theorem stream_length (n : Nat) (snap : Word) : (stream n snap).length = n := by simp [stream]

/-- The raw word, bit by bit (R106): below `32 - n` the padding, above it the wired bits. -/
theorem rawWord_getLsbD (n : Nat) (snap pad : Word) (j : Nat) (hn : n ≤ 32) (hj : j < 32) :
    (rawWord n snap pad).getLsbD j =
      if j < 32 - n then pad.getLsbD j else snap.getLsbD (j - (32 - n)) := by
  simp only [rawWord, BitVec.getLsbD_or, lowBits_getLsbD, BitVec.getLsbD_shiftLeft]
  by_cases h : j < 32 - n
  · simp [h]
  · have h2 : j - (32 - n) < n := by omega
    simp [h, hj, h2]

end Sys2Proof.Machine
end

