-- ==== Sys2Proof/Laws/Step.lean ====
section
/-! SUPPORT. What one command and one step can do, said once: later proofs take a step apart with these
lemmas and unfold neither `exec` nor `step`. -/

namespace Sys2Proof.Machine

/-! ### Commands -/

/-- Everything a command that answers a next state can have done. -/
inductive Answered (s : State) : Instr → State → Prop where
  | refused (i : Instr) (st : Status) (h : st ≠ .ok) : Answered s i (s.respond st 0#32)
  | read (i : Instr) (d : Word) (h : i = .readValue ∨ i = .getPinsUsed ∨ ∃ reg, i = .rdreg reg) :
      Answered s i (s.respond .ok d)
  | cfgPins (clk latch data : PinId) (hrun : s.bus.run = false)
      (hset : pinsSet clk latch data ≠ 1 ∧ pinsSet clk latch data ≠ 2) :
      Answered s (.cfgPins clk latch data)
        ((s.withBus (s.bus.setCfgPins (packCfgPins clk latch data))).respond .ok 0#32)
  | cfgMode (shiftIn : Bool) (chips : Nat) (hrun : s.bus.run = false) (h1 : 1 ≤ chips) (h4 : chips ≤ 4)
      (hhi : s.bus.hi.toNat ≤ 8 * chips) :
      Answered s (.cfgMode shiftIn chips)
        ((s.withBus (s.bus.setCfgMode (packCfgMode shiftIn chips))).respond .ok 0#32)
  | start (hrun : s.bus.run = false) (hcfg : s.bus.configured = true) :
      Answered s .start ((s.withBus (s.bus.setRun true)).respond .ok 0#32)
  | stop (hrun : s.bus.run = true) :
      Answered s .stop ((s.withBus (s.bus.setRun false)).respond .ok 0#32)
  | attach (sub : SubId) (pin : Nat) (hpin : pin < s.bus.wiredBits) :
      Answered s (.attach sub pin) ((s.withBus (s.bus.subscribe sub pin)).respond .ok 0#32)
  | detach (pin : Nat) :
      Answered s (.detach pin) ((s.withBus (s.bus.unsubscribe pin)).respond .ok 0#32)
  | setPinUsed (pin : Nat) :
      Answered s (.setPinUsed pin) ((s.withBus (s.bus.markUsed pin)).respond .ok 0#32)
  | reconcile (value : Word) (u : State) (hrun : s.bus.run = false)
      (hu : reconcile preemptSlot value s = .ok u) : Answered s (.reconcile value) (u.respond .ok 0#32)

/-- A command that answers a next state has done one of the things of `Answered`. -/
theorem exec_answered (i : Instr) (s t : State) (h : exec i s = .next t) : Answered s i t := by
  cases i with
  | cfgPins clk latch data =>
    rw [exec_cfgPins] at h
    unfold cfgPinsBus at h
    split at h
    · cases h; exact .refused _ .running (by decide)
    · rename_i hrun
      split at h
      · cases h; exact .refused _ .pinsIncomplete (by decide)
      · rename_i hset
        cases h
        exact .cfgPins clk latch data (Bool.eq_false_iff.mpr hrun) (not_or.mp hset)
  | cfgMode shiftIn chips =>
    rw [exec_cfgMode] at h
    unfold cfgModeBus at h
    split at h
    · cases h; exact .refused _ .running (by decide)
    · rename_i hrun
      split at h
      · cases h; exact .refused _ .numChips (by decide)
      · split at h
        · cases h; exact .refused _ .chipsConflict (by decide)
        · cases h
          exact .cfgMode shiftIn chips (Bool.eq_false_iff.mpr hrun) (by omega) (by omega) (by omega)
  | start =>
    rw [exec_start] at h
    split at h
    · cases h; exact .refused _ .running (by decide)
    · rename_i hrun
      split at h
      · rename_i hcfg; cases h; exact .start (Bool.eq_false_iff.mpr hrun) hcfg
      · cases h; exact .refused _ .notConfigured (by decide)
  | stop =>
    rw [exec_stop] at h
    split at h
    · rename_i hrun; cases h; exact .stop hrun
    · cases h; exact .refused _ .notRunning (by decide)
  | attach sub pin =>
    rw [exec_attach] at h
    obtain ⟨-, hr⟩ | ⟨hpin, hr⟩ := attachBus_cases sub pin s.bus
    · rw [hr] at h; cases h; exact .refused _ .pinRange (by decide)
    · rw [hr] at h; cases h; exact .attach sub pin hpin
  | detach pin => rw [exec_detach] at h; cases h; exact .detach pin
  | readValue => rw [exec_readValue] at h; cases h; exact .read _ _ (.inl rfl)
  | reconcile value =>
    obtain ⟨-, rfl⟩ | ⟨hrun, u, hu, rfl⟩ := exec_reconcile_cases value s t h
    · exact .refused _ .running (by decide)
    · exact .reconcile value u hrun hu
  | setPinUsed pin => rw [exec_setPinUsed] at h; cases h; exact .setPinUsed pin
  | getPinsUsed => rw [exec_getPinsUsed] at h; cases h; exact .read _ _ (.inr (.inl rfl))
  | rdreg reg =>
    rw [exec_rdreg] at h
    unfold rdregBus at h
    split at h
    · cases h; exact .read _ _ (.inr (.inr ⟨reg, rfl⟩))
    · cases h; exact .refused _ .reg (by decide)

/-! ### Samplers -/

/-- What a sampler does with a completed sample: an equal one is counted, a different one is counted
twice and reconciled (R135, R152). -/
theorem deliver_cases (slot : Collab → Collab) (sample : Word) (s t : State)
    (h : deliver slot sample s = .ok t) :
    (sample = s.bus.liw ∧ t = s.withBus s.bus.countFrame) ∨
      (sample ≠ s.bus.liw ∧
        reconcile slot sample (s.withBus s.bus.countFrame.countChange) = .ok t) := by
  unfold deliver at h
  dsimp only at h
  split at h <;> rename_i hs
  · exact .inl ⟨hs, by simpa using h.symm⟩
  · exact .inr ⟨hs, h⟩

/-- A delivery completes when every interested pin has a subscriber. -/
theorem deliver_ok (slot : Collab → Collab) (sample : Word) (s : State)
    (hsub : ∀ i, s.bus.interest.getLsbD i = true → ∃ sub, s.bus.cbAt i = some sub) :
    ∃ t, deliver slot sample s = .ok t := by
  unfold deliver
  dsimp only
  split
  · exact ⟨_, rfl⟩
  · exact reconcile_ok slot sample _ hsub

/-! ### Steps -/

/-- Everything a step that answers a next state can have been. -/
inductive Stepped (s : State) : State → Prop where
  | idle (h : s.inputs = []) : Stepped s s
  | command (w : Command) (rest : List Input) (i : Instr) (t : State) (hin : s.inputs = .command w :: rest)
      (hd : decode w = .ok i) (ht : Answered s i t) : Stepped s t
  | rejected (w : Command) (rest : List Input) (e : DecodeError) (hin : s.inputs = .command w :: rest)
      (hd : decode w = .error e) : Stepped s (s.respond e.status 0#32)
  | skipped (a : AgentStep) (rest : List Input) (hin : s.inputs = .agent a :: rest)
      (h : (∃ snap pad, a = .frameDone snap pad ∧ s.bus.frameEnabled = false) ∨
        ∃ snap, a = .pollCycle snap ∧ s.bus.pollEnabled = false) : Stepped s (s.withInputs rest)
  | frame (snap pad : Word) (rest : List Input) (t : State)
      (hin : s.inputs = .agent (.frameDone snap pad) :: rest) (hen : s.bus.frameEnabled = true)
      (ht : frameDone snap pad (s.withInputs rest) = .ok t) : Stepped s t
  | poll (snap : Word) (rest : List Input) (t : State)
      (hin : s.inputs = .agent (.pollCycle snap) :: rest) (hen : s.bus.pollEnabled = true)
      (ht : pollCycle snap (s.withInputs rest) = .ok t) : Stepped s t
  | leBuild (sub : SubId) (axis motor dir : Nat) (source : Source) (rest : List Input)
      (hin : s.inputs = .agent (.leConstruct sub axis motor dir source) :: rest) :
      Stepped s (leConstruct sub axis motor dir source (s.withInputs rest))
  | leInit (sub : SubId) (rest : List Input) (t : State)
      (hin : s.inputs = .agent (.leInitialize sub) :: rest)
      (ht : leInitialize sub (s.withInputs rest) = .ok t) : Stepped s t
  | leFold (sub : SubId) (rest : List Input) (t : State)
      (hin : s.inputs = .agent (.leMakeDualAxisMask sub) :: rest)
      (ht : leMakeDualAxisMask sub (s.withInputs rest) = .ok t) : Stepped s t
  | leDrop (sub : SubId) (rest : List Input) (t : State)
      (hin : s.inputs = .agent (.leTeardown sub) :: rest)
      (ht : leTeardown sub (s.withInputs rest) = .ok t) : Stepped s t
  | env (e : EnvStep) (rest : List Input) (hin : s.inputs = .agent (.env e) :: rest) :
      Stepped s ((s.withInputs rest).withCol (envStep e s.col))

/-- A computation that answered a next state ended without a fault. -/
theorem outcomeOf_next (r : Except Fault State) (t : State) (h : outcomeOf r = .next t) : r = .ok t := by
  cases r with
  | ok s => simpa [outcomeOf] using h
  | error f => simp [outcomeOf] at h

/-- A step that answers a next state is one of the steps of `Stepped`. -/
theorem step_stepped (s t : State) (h : step s = .next t) : Stepped s t := by
  unfold step at h
  split at h
  · rename_i hin; cases h; exact .idle hin
  · rename_i w rest hin
    split at h
    · rename_i i hd; exact .command w rest i t hin hd (exec_answered i s t h)
    · rename_i e hd; cases h; exact .rejected w rest e hin hd
  · rename_i a rest hin
    cases a with
    | frameDone snap pad =>
      simp only [agentStep] at h
      split at h
      · rename_i hen; exact .frame snap pad rest t hin hen (outcomeOf_next _ _ h)
      · rename_i hen
        cases h
        exact .skipped _ rest hin (.inl ⟨snap, pad, rfl, Bool.eq_false_iff.mpr hen⟩)
    | pollCycle snap =>
      simp only [agentStep] at h
      split at h
      · rename_i hen; exact .poll snap rest t hin hen (outcomeOf_next _ _ h)
      · rename_i hen
        cases h
        exact .skipped _ rest hin (.inr ⟨snap, rfl, Bool.eq_false_iff.mpr hen⟩)
    | leConstruct sub axis motor dir source =>
      cases h; exact .leBuild sub axis motor dir source rest hin
    | leInitialize sub => exact .leInit sub rest t hin (outcomeOf_next _ _ h)
    | leMakeDualAxisMask sub => exact .leFold sub rest t hin (outcomeOf_next _ _ h)
    | leTeardown sub => exact .leDrop sub rest t hin (outcomeOf_next _ _ h)
    | env e => cases h; exact .env e rest hin

/-! ### The LimitEndpoint operations -/

/-- `LE_CONSTRUCT`: out of range, or a new record under `sub` (R202, R203). -/
theorem leConstruct_cases (sub : SubId) (axis motor dir : Nat) (source : Source) (s : State) :
    ((Config.maxAxes ≤ axis ∨ 1 < motor) ∧
      leConstruct sub axis motor dir source s = s.recordLe .errRange) ∨
    (axis < Config.maxAxes ∧ motor ≤ 1 ∧ ∃ o,
      leConstruct sub axis motor dir source s =
        (s.withCol (s.col.setEndpoint sub (newEndpoint axis motor dir source))).recordLe o) := by
  unfold leConstruct
  split <;> rename_i h
  · exact .inl ⟨h, rfl⟩
  · exact .inr ⟨by omega, by omega, _, rfl⟩

/-- `LE_INITIALIZE` of a constructed endpoint: refused without effect, or attached (R204). -/
theorem leInitialize_cases (sub : SubId) (s t : State) (h : leInitialize sub s = .ok t) :
    ∃ ep, s.col.endpoint sub = some ep ∧
      ((∃ o, t = s.recordLe o) ∨
        (ep.participates = true ∧
          ∃ b, ((∃ p : Fin 32, ep.source = .bus p ∧ p.val < s.bus.wiredBits ∧ b = s.bus.subscribe sub p.val) ∨
              (∃ n, ep.source = .native n ∧ b = s.bus)) ∧
            t = ((s.withBus b).withCol
              ((s.col.setEndpoint sub (setAttached ep true)).orLimitMask ep.bitmask)).recordLe .ok)) := by
  unfold leInitialize at h
  split at h
  · cases h
  · rename_i ep hep
    refine ⟨ep, hep, ?_⟩
    split at h
    · rename_i hpart
      cases hs : ep.source with
      | bus p =>
        rw [hs] at h
        obtain ⟨-, hr⟩ | ⟨hp, hr⟩ := attachBus_cases sub p.val s.bus
        · simp only [hr] at h; cases h; exact .inl ⟨_, rfl⟩
        · simp only [hr] at h; cases h
          exact .inr ⟨hpart, _, .inl ⟨p, rfl, hp, rfl⟩, rfl⟩
      | native n =>
        rw [hs] at h
        cases h
        exact .inr ⟨hpart, _, .inr ⟨n, rfl, rfl⟩, rfl⟩
    · cases h; exact .inl ⟨_, rfl⟩

/-- `LE_MAKE_DUAL_AXIS_MASK` of a constructed endpoint (R208). -/
theorem leMakeDualAxisMask_cases (sub : SubId) (s t : State) (h : leMakeDualAxisMask sub s = .ok t) :
    ∃ ep, s.col.endpoint sub = some ep ∧
      t = (s.withCol (s.col.setEndpoint sub { ep with bitmask := dualAxisMask ep.axis })).recordLe .ok := by
  unfold leMakeDualAxisMask at h
  split at h
  · cases h
  · rename_i ep hep; cases h; exact ⟨ep, hep, rfl⟩

/-- `LE_TEARDOWN` of a constructed endpoint (R209). -/
theorem leTeardown_cases (sub : SubId) (s t : State) (h : leTeardown sub s = .ok t) :
    ∃ ep, s.col.endpoint sub = some ep ∧
      ∃ b, ((∃ p : Fin 32, ep.source = .bus p ∧ b = s.bus.unsubscribe p.val) ∨
          (∃ n, ep.source = .native n ∧ b = s.bus)) ∧
        t = ((s.withBus b).withCol (s.col.setEndpoint sub (setAttached ep false))).recordLe .ok := by
  unfold leTeardown at h
  split at h
  · cases h
  · rename_i ep hep
    refine ⟨ep, hep, ?_⟩
    cases hs : ep.source with
    | bus p => rw [hs] at h; cases h; exact ⟨_, .inl ⟨p, rfl, rfl⟩, rfl⟩
    | native n => rw [hs] at h; cases h; exact ⟨_, .inr ⟨n, rfl, rfl⟩, rfl⟩

end Sys2Proof.Machine
end

