-- ==== Sys2Proof/Laws/Inv.lean ====
section
/-! SUPPORT. The invariants of Safety.lean: a check that decides the block's, and which operations keep
which part. -/

namespace Sys2Proof.Machine

/-! ### Deciding the block's invariant on a given block -/

/-- The invariants of the block as one check: the clauses over all bits are read off bits 0 to 31. -/
def Bus.check (b : Bus) : Bool :=
  decide (1 ≤ b.numChips ∧ b.numChips ≤ 4 ∧ b.cfgMode.extractLsb' 3 5 = 0#5 ∧
    b.hi.toNat ≤ 8 * b.numChips ∧ b.prev = b.liw) &&
  (List.range 32).all (fun i =>
    !b.interest.getLsbD i || (decide (i < b.hi.toNat) && (b.cbAt i).isSome)) &&
  decide ((b.clkPin = 0xFF#8 ∧ b.latchPin = 0xFF#8 ∧ b.dataPin = 0xFF#8) ∨
    (b.clkPin ≠ 0xFF#8 ∧ b.latchPin ≠ 0xFF#8 ∧ b.dataPin ≠ 0xFF#8)) &&
  (!b.run || b.configured)

/-- The check is sound. -/
theorem busInv_of_check (b : Bus) (h : b.check = true) : BusInv b := by
  simp only [Bus.check, Bool.and_eq_true, decide_eq_true_eq, List.all_eq_true, List.mem_range,
    Bool.or_eq_true, Bool.not_eq_true'] at h
  obtain ⟨⟨⟨⟨h1, h2, h3, h4, h5⟩, h6⟩, h7⟩, h8⟩ := h
  have key : ∀ i, b.interest.getLsbD i = true → i < b.hi.toNat ∧ (b.cbAt i).isSome = true := by
    intro i hi
    by_cases hlt : i < 32
    · obtain hf | hs := h6 i hlt
      · rw [hf] at hi; cases hi
      · exact hs
    · rw [BitVec.getLsbD_of_ge _ _ (Nat.le_of_not_lt hlt)] at hi; cases hi
  refine ⟨⟨h1, h2⟩, h3, h4, fun i hi => (key i hi).1,
    fun i hi => Option.isSome_iff_exists.mp (key i hi).2, h5, h7, ?_⟩
  intro hr
  obtain hf | hc := h8
  · rw [hr] at hf; cases hf
  · exact hc

/-- With 1 to 4 chips at most 32 bits are wired. -/
theorem wiredBits_le (b : Bus) (h : BusInv b) : b.wiredBits ≤ 32 := by
  have := h.chips
  unfold Bus.wiredBits
  omega

/-! ### Fields of the configuration words -/

/-- The three fields of a packed `CFG_PINS` (R32). -/
theorem setCfgPins_fields (b : Bus) (clk latch data : PinId) :
    (b.setCfgPins (packCfgPins clk latch data)).clkPin = clk ∧
    (b.setCfgPins (packCfgPins clk latch data)).latchPin = latch ∧
    (b.setCfgPins (packCfgPins clk latch data)).dataPin = data := by
  simp only [Bus.clkPin, Bus.latchPin, Bus.dataPin, Bus.setCfgPins_cfgPins, packCfgPins, fieldAt]
  refine ⟨?_, ?_, ?_⟩ <;> (ext j hj; interval_cases j <;> simp)

/-- The fields of a packed `CFG_MODE` with a legal chip count (R34). -/
theorem setCfgMode_fields (b : Bus) (shiftIn : Bool) (chips : Nat) (h : chips ≤ 4) :
    (b.setCfgMode (packCfgMode shiftIn chips)).numChips = chips ∧
    (b.setCfgMode (packCfgMode shiftIn chips)).useShiftIn = shiftIn ∧
    (packCfgMode shiftIn chips).extractLsb' 3 5 = 0#5 := by
  simp only [Bus.numChips, Bus.useShiftIn, Bus.setCfgMode_cfgMode]
  interval_cases chips <;> cases shiftIn <;> decide

/-- The number of set identifiers is neither 1 nor 2 exactly when all or none is set (R232). -/
theorem pinsSet_whole_iff (clk latch data : PinId) :
    (pinsSet clk latch data ≠ 1 ∧ pinsSet clk latch data ≠ 2) ↔
      ((clk = 0xFF#8 ∧ latch = 0xFF#8 ∧ data = 0xFF#8) ∨
        (clk ≠ 0xFF#8 ∧ latch ≠ 0xFF#8 ∧ data ≠ 0xFF#8)) := by
  unfold pinsSet Config.pinNotSet
  by_cases h1 : clk = 0xFF#8 <;> by_cases h2 : latch = 0xFF#8 <;> by_cases h3 : data = 0xFF#8 <;>
    simp [h1, h2, h3]

/-! ### Which operation keeps the block's invariant -/

/-- An accepted `ATTACH` keeps the invariant (R166). -/
theorem busInv_subscribe (b : Bus) (hI : BusInv b) (sub : SubId) (pin : Nat) (hpin : pin < b.wiredBits) :
    BusInv (b.subscribe sub pin) := by
  have h32 := wiredBits_le b hI
  have hh := raisedHi_toNat b.hi pin (by omega)
  have key : ∀ i, (b.subscribe sub pin).interest.getLsbD i = true →
      b.interest.getLsbD i = true ∨ pin = i := by
    intro i h
    rw [Bus.subscribe_interest, setBit_getLsbD _ _ _ (by omega)] at h
    simpa using h
  refine ⟨hI.chips, hI.modeReserved, ?_, ?_, ?_, hI.prevIsLiw, hI.pinsLegal, hI.runConfigured⟩
  · have hb := hI.hiBound
    unfold Bus.wiredBits at hpin
    show (raisedHi b.hi pin).toNat ≤ 8 * b.numChips
    omega
  · intro i h
    show i < (raisedHi b.hi pin).toNat
    obtain h | h := key i h
    · have := hI.interestBelow i h; omega
    · omega
  · intro i h
    rw [cbAt_subscribe]
    split
    · exact ⟨_, rfl⟩
    · rename_i hn
      obtain h | h := key i h
      · exact hI.subscribed i h
      · exact absurd ⟨h, by omega⟩ hn

/-- `DETACH` keeps the invariant (R168). -/
theorem busInv_unsubscribe (b : Bus) (hI : BusInv b) (pin : Nat) : BusInv (b.unsubscribe pin) := by
  have key : ∀ i, (b.unsubscribe pin).interest.getLsbD i = true → b.interest.getLsbD i = true := by
    intro i h
    rw [Bus.unsubscribe_interest, clearBit_getLsbD] at h
    simp only [Bool.and_eq_true] at h
    exact h.1
  exact ⟨hI.chips, hI.modeReserved, hI.hiBound, fun i h => hI.interestBelow i (key i h),
    fun i h => hI.subscribed i (key i h), hI.prevIsLiw, hI.pinsLegal, hI.runConfigured⟩

/-- A delivered word, with any counters and any frame buffer, keeps the invariant (R172). -/
theorem busInv_delivered (b : Bus) (hI : BusInv b) (nv fb frames changes : Word) :
    BusInv { b with liw := nv, prev := nv, fb := fb, frames := frames, changes := changes } :=
  ⟨hI.chips, hI.modeReserved, hI.hiBound, hI.interestBelow, hI.subscribed, rfl, hI.pinsLegal,
    hI.runConfigured⟩

/-! ### The endpoints -/

/-- `MAX_AXES` lies in 1 to 16 (R12). -/
theorem maxAxes_bounds : 1 ≤ Config.maxAxes ∧ Config.maxAxes ≤ 16 := by
  have := Config.maxAxesLessOne.isLt
  unfold Config.maxAxes
  omega

/-- The record of an accepted `LE_CONSTRUCT` is as R44 says. -/
theorem endpointInv_newEndpoint (axis motor dir : Nat) (source : Source) (h1 : axis < Config.maxAxes)
    (h2 : motor ≤ 1) : EndpointInv (newEndpoint axis motor dir source) :=
  ⟨h1, h2, rfl, .inl rfl, by simp [newEndpoint]⟩

/-- Writing a good record keeps every record good. -/
theorem collabInv_setEndpoint (c : Collab) (hI : CollabInv c) (sub : SubId) (ep : Endpoint)
    (h : EndpointInv ep) : CollabInv (c.setEndpoint sub ep) := by
  intro sub' ep' he
  rw [endpoint_setEndpoint] at he
  split at he
  · cases he; exact h
  · exact hI _ _ he

/-- What writes no endpoint keeps every record good. -/
theorem collabInv_of_fixed (c d : Collab) (h : d.fixed = c.fixed) (hI : CollabInv c) : CollabInv d := by
  intro sub ep he
  rw [endpoint_of_fixed c d h] at he
  exact hI sub ep he

/-- With no endpoint constructed there is none to be bad. -/
theorem collabInv_of_empty (c : Collab) (h : c.ep = Vector.replicate 256 none) : CollabInv c := by
  intro sub ep he
  have hlt : sub.toNat < 256 := sub.isLt
  simp [Collab.endpoint, h, hlt] at he

end Sys2Proof.Machine
end

