-- ==== Sys2Proof/Laws/PerInstr.lean ====
section
/-! SUPPORT. One law per constructor of Instr: the word the encoder writes carries the opcode and the zero
reserved bits of its own row of the opcode table (R101), whatever the operands are. -/

namespace Sys2Proof.Laws.EncodesItsRow

/-- The word of `i` matches the row of its opcode: `cmd & mask = match` (R101). -/
def Statement (i : Instr) : Prop := encode i &&& maskWord i.opcode = matchWord i.opcode

theorem cfgPins (clk latch data : PinId) : Statement (.cfgPins clk latch data) := by
  unfold Statement; simp only [encode, argWord, matchWord, maskWord, Instr.opcode, fieldAt]
  ext j hj; interval_cases j <;> simp

theorem cfgMode (shiftIn : Bool) (chips : Nat) : Statement (.cfgMode shiftIn chips) := by
  unfold Statement; simp only [encode, argWord, matchWord, maskWord, Instr.opcode, fieldAt]
  ext j hj; interval_cases j <;> simp

theorem start : Statement .start := by unfold Statement; decide

theorem stop : Statement .stop := by unfold Statement; decide

theorem attach (sub : SubId) (pin : Nat) : Statement (.attach sub pin) := by
  unfold Statement; simp only [encode, argWord, matchWord, maskWord, Instr.opcode, fieldAt]
  ext j hj; interval_cases j <;> simp

theorem detach (pin : Nat) : Statement (.detach pin) := by
  unfold Statement; simp only [encode, argWord, matchWord, maskWord, Instr.opcode, fieldAt]
  ext j hj; interval_cases j <;> simp

theorem readValue : Statement .readValue := by unfold Statement; decide

theorem reconcile (value : Word) : Statement (.reconcile value) := by
  unfold Statement; simp only [encode, argWord, matchWord, maskWord, Instr.opcode, fieldAt]
  ext j hj; interval_cases j <;> simp

theorem setPinUsed (pin : Nat) : Statement (.setPinUsed pin) := by
  unfold Statement; simp only [encode, argWord, matchWord, maskWord, Instr.opcode, fieldAt]
  ext j hj; interval_cases j <;> simp

theorem getPinsUsed : Statement .getPinsUsed := by unfold Statement; decide

theorem rdreg (reg : Nat) : Statement (.rdreg reg) := by
  unfold Statement; simp only [encode, argWord, matchWord, maskWord, Instr.opcode, fieldAt]
  ext j hj; interval_cases j <;> simp

end Sys2Proof.Laws.EncodesItsRow
end

