-- ==== Sys2Proof/Tests/Slice0.lean ====
section
/-! SUPPORT. Tests on the spec's own vectors (95_test_vectors.md; each test names its vector), the smoke test
of WellFormed, and for every obligation with hypotheses a concrete case that meets them. -/

-- Tests are elaborated one after the other: each kernel evaluation would else hold a thread.
set_option Elab.async false

namespace Sys2Proof.Tests

open Sys2Proof.Machine

/-! ### Helpers -/

/-- The next state of an outcome, where it is one. -/
def nextOf : Host.Outcome State Fault Refusal → Option State
  | .next t => some t
  | .fault _ => none
  | .refused _ => none

/-- The block set up as in 2.2: three pins set, `n` chips, sampler and `RUN` as given. -/
def block (n : Nat) (shiftIn run : Bool) : Bus :=
  { Bus.reset with cfgPins := 0x0C0D0E#24, cfgMode := packCfgMode shiftIn n, run := run }

/-- The subscriptions of 2.4: `ATTACH sub=5 pin=0`, `sub=7 pin=2`, `sub=8 pin=9`, two chips. -/
def busOf24 (word : Word) : Bus :=
  { (((block 2 false false).subscribe 5 0).subscribe 7 2).subscribe 8 9 with liw := word, prev := word }

/-- The reset state with another block. -/
def withB (b : Bus) : State := State.reset.withBus b

/-- A state with one command word at the port. -/
def offer (w : Command) (s : State) : State := s.withInputs [.command w]

/-- A state in which another agent takes the next step. -/
def agent (a : AgentStep) (s : State) : State := s.withInputs [.agent a]

/-- The endpoint of V90 with direction code `dir`: axis 2, motor 0, on pin `p` of the bus. -/
def endpoint2 (dir : Nat) (p : Fin 32) : Endpoint := newEndpoint 2 0 dir (.bus p)

/-- One collaborator side: the endpoint under identifier 1, hard limits armed. -/
def side (ep : Endpoint) : Collab := { Collab.reset.setEndpoint 1 ep with hardLimits := true }

/-- The running one-chip block of V97 with `ATTACH sub=1 pin=3`. -/
def running (shiftIn : Bool) : Bus := (block 1 shiftIn true).subscribe 1 3

/-- The words the port has given. -/
def answers (o : Host.Outcome State Fault Refusal) : Option (List Response) := (nextOf o).map (·.responses)

/-- The events recorded, as the 16-bit records of R110. -/
def records (o : Host.Outcome State Fault Refusal) : Option (List (BitVec 16)) :=
  (nextOf o).map fun t => t.events.map eventWord

/-! ### Decoding: every row of the opcode table (R101), words of 2.1 and of section 3 -/

theorem test_decode_cfgPins : decode 0x01000C0D0E#40 = .ok (.cfgPins 12 13 14) := by rfl
theorem test_decode_cfgMode : decode 0x0200000104#40 = .ok (.cfgMode true 4) := by rfl
theorem test_decode_start : decode 0x0300000000#40 = .ok .start := by rfl
theorem test_decode_stop : decode 0x0400000000#40 = .ok .stop := by rfl
theorem test_decode_attach : decode 0x1000000103#40 = .ok (.attach 1 3) := by rfl
theorem test_decode_detach : decode 0x1100000003#40 = .ok (.detach 3) := by rfl
theorem test_decode_readValue : decode 0x1200000000#40 = .ok .readValue := by rfl
theorem test_decode_reconcile : decode 0x13000001FF#40 = .ok (.reconcile 0x1FF#32) := by rfl
theorem test_decode_setPinUsed : decode 0x1400000003#40 = .ok (.setPinUsed 3) := by rfl
theorem test_decode_getPinsUsed : decode 0x1500000000#40 = .ok .getPinsUsed := by rfl
theorem test_decode_rdreg : decode 0x2000000008#40 = .ok (.rdreg 8) := by rfl

/-- V1 to V5. -/
theorem test_illegal_opcodes :
    [0x0000000000#40, 0xFF00000000#40, 0x0500000000#40, 0x1600000000#40, 0x2100000000#40].map
      (fun w => answers (step (offer w State.reset))) =
    List.replicate 5 (some [0x100000000#36]) := by decide +kernel

/-- V6 to V17: a reserved bit of each format, before any check of the command. -/
theorem test_reserved_bits :
    [0x0300000001#40, 0x0301000000#40, 0x0101000000#40, 0x0200000008#40, 0x0200000201#40,
      0x1000010003#40, 0x1000000123#40, 0x1100000020#40, 0x1200000001#40, 0x1400000100#40,
      0x1500000001#40, 0x2000000040#40].map (fun w => answers (step (offer w State.reset))) =
    List.replicate 12 (some [0x200000000#36]) := by decide +kernel

/-- No word is in two rows of the table. -/
theorem test_rows_disjoint :
    [Opcode.cfgPins, .cfgMode, .start, .stop, .attach, .detach, .readValue, .reconcile, .setPinUsed,
      .getPinsUsed, .rdreg].Pairwise (fun a b =>
        maskWord a &&& maskWord b &&& (matchWord a ^^^ matchWord b) ≠ 0#40) := by decide

/-- The host's numbering: a 40-bit row, and nothing above 40 bits. -/
theorem test_table_word :
    decodeTableWord 40 0x100000FF1F = some (.attach 255 31) ∧ decodeTableWord 40 0 = none ∧
    decodeTableWord 48 0x0300000000 = none := by decide

/-! ### WellFormed: each check refuses a term that breaks it -/

theorem smoke_cfgMode_chips : (Instr.cfgMode false 8).wf = false := by rfl
theorem smoke_attach_pin : (Instr.attach 0 32).wf = false := by rfl
theorem smoke_detach_pin : (Instr.detach 32).wf = false := by rfl
theorem smoke_setPinUsed_pin : (Instr.setPinUsed 32).wf = false := by rfl
theorem smoke_rdreg_reg : (Instr.rdreg 64).wf = false := by rfl

/-! ### Commands, one step each -/

/-- V30. -/
theorem test_cfgPins :
    (nextOf (step (offer 0x01000C0D0E#40 State.reset))).map (fun t => (t.bus.cfgPins, t.bus.configured))
      = some (0x0C0D0E#24, true) := by decide +kernel

/-- V31, V32. -/
theorem test_cfgPins_incomplete :
    answers (step (offer 0x01000CFF0E#40 State.reset)) = some [0x300000000#36] ∧
    answers (step (offer 0x0100FFFF0E#40 State.reset)) = some [0x300000000#36] := by decide +kernel

/-- V37, V39. -/
theorem test_cfgMode :
    (nextOf (step (offer 0x0200000104#40 State.reset))).map (·.bus.cfgMode) = some 0x104#9 ∧
    answers (step (offer 0x0200000001#40 (withB ((block 2 false false).subscribe 1 7))))
      = some [0#36] := by decide +kernel

/-- V34, V36, V38, V73: the refusals in their order. -/
theorem test_cfgMode_refusals :
    [(0x0200000000#40, State.reset), (0x0200000107#40, State.reset),
      (0x0200000001#40, withB (busOf24 0)), (0x0200000005#40, withB (block 1 false true))].map
        (fun p => answers (step (offer p.1 p.2))) =
    [some [0x400000000#36], some [0x400000000#36], some [0x800000000#36],
      some [0x500000000#36]] := by decide +kernel

/-- V71. -/
theorem test_start :
    (nextOf (step (offer 0x0300000000#40 (withB (block 1 false false))))).map
      (fun t => (t.bus.run, t.bus.statusWord)) = some (true, 3#32) := by decide +kernel

/-- V70, V72. -/
theorem test_start_refusals :
    answers (step (offer 0x0300000000#40 State.reset)) = some [0x600000000#36] ∧
    answers (step (offer 0x0300000000#40 (withB (block 1 false true)))) = some [0x500000000#36] := by
  decide +kernel

/-- V77, V78. -/
theorem test_stop :
    (nextOf (step (offer 0x0400000000#40 (withB (block 1 false true))))).map (·.bus.statusWord)
      = some 2#32 ∧
    answers (step (offer 0x0400000000#40 State.reset)) = some [0xA00000000#36] := by decide +kernel

/-- V59. -/
theorem test_attach :
    (nextOf (step (offer 0x100000FF1F#40 (withB (block 4 false false))))).map
      (fun t => (t.bus.hi, t.bus.interest, t.bus.cbAt 31)) =
    some (32#6, 0x80000000#32, some 255) := by decide +kernel

/-- V52 (overwrite) and V57 (refusal). -/
theorem test_attach_overwrite_and_range :
    (nextOf (step (offer 0x1000000903#40 (withB (running false))))).map
      (fun t => (t.bus.hi, t.bus.interest, t.bus.cbAt 3)) = some (4#6, 8#32, some 9) ∧
    answers (step (offer 0x1000000108#40 State.reset)) = some [0x700000000#36] := by decide +kernel

/-- V53. -/
theorem test_detach :
    (nextOf (step (offer 0x1100000003#40 (withB (running false))))).map
      (fun t => (t.bus.hi, t.bus.interest, t.bus.cbAt 3)) = some (4#6, 0#32, some 1) := by
  decide +kernel

/-- The example of R169. -/
theorem test_readValue :
    answers (step (offer 0x1200000000#40 (withB (busOf24 8)))) = some [8#36] := by decide +kernel

/-- V43, V48. -/
theorem test_reconcile :
    records (step (offer 0x1300000205#40 (withB (busOf24 0)))) =
      some [0x0520#16, 0x0722#16, 0x0829#16] ∧
    records (step (offer 0x1300000204#40 (withB (busOf24 1)))) =
      some [0x0500#16, 0x0722#16, 0x0829#16] := by decide +kernel

/-- V45, V47 (gated, stored), V75 (refused). -/
theorem test_reconcile_gates :
    records (step (offer 0x13000001FA#40 (withB (busOf24 0)))) = some [] ∧
    (nextOf (step (offer 0x13FFFF0400#40 (withB (busOf24 0))))).map
      (fun t => (t.events, t.bus.liw, t.bus.prev)) = some ([], 0xFFFF0400#32, 0xFFFF0400#32) ∧
    answers (step (offer 0x1300000008#40 (withB (block 1 false true)))) = some [0x500000000#36] := by
  decide +kernel

/-- V80. -/
theorem test_setPinUsed :
    (nextOf (step (offer 0x140000001F#40 (withB (Bus.reset.markUsed 3))))).map (·.bus.pinsUsed)
      = some 0x80000008#32 := by decide +kernel

/-- The example of R239. -/
theorem test_getPinsUsed :
    answers (step (offer 0x1500000000#40 (withB (Bus.reset.markUsed 3)))) = some [8#36] := by
  decide +kernel

/-- V82. -/
theorem test_rdreg_reset :
    (List.range 10).map (fun r => answers (exec (.rdreg r) State.reset)) =
      [some [0#36], some [0#36], some [0#36], some [0#36], some [0#36], some [0x00FFFFFF#36],
        some [1#36], some [0#36], some [0#36], some [0#36]] := by decide +kernel

/-- V52, V61, V62, V81. -/
theorem test_rdreg_table :
    [(35, withB (running false)), (32, State.reset), (32, withB ((block 1 false false).subscribe 0 0)),
      (10, State.reset), (31, State.reset)].map (fun p => answers (exec (.rdreg p.1) p.2)) =
    [some [0x101#36], some [0#36], some [0x100#36], some [0x900000000#36], some [0x900000000#36]] := by
  decide +kernel

/-! ### Samplers -/

/-- V20, V23, V24, V25: `FB` and the new `LIW`. -/
theorem test_frame :
    [(1, 0xA5#32, 0x00FFFFFF#32), (2, 0xFFFFBEEF#32, 0xFFFFFFFF#32), (3, 0xC0FFEE#32, 0x5A#32),
      (4, 0xDEADBEEF#32, 0x77#32)].map (fun p =>
        (nextOf (step (agent (.frameDone p.2.1 p.2.2) (withB (block p.1 false true))))).map
          (fun t => (t.bus.fb, t.bus.liw))) =
    [some (0xA5FFFFFF#32, 0xA5#32), some (0xBEEFFFFF#32, 0xBEEF#32), some (0xC0FFEE5A#32, 0xC0FFEE#32),
      some (0xDEADBEEF#32, 0xDEADBEEF#32)] := by decide +kernel

/-- V26 (no change counted) and V65 (both counters wrap). -/
theorem test_frame_counters :
    (nextOf (step (agent (.frameDone 0 0) (withB (block 4 false true))))).map
      (fun t => (t.bus.frames, t.bus.changes)) = some (1#32, 0#32) ∧
    (nextOf (step (agent (.frameDone 1 0) (withB
      { running false with frames := 0xFFFFFFFF#32, changes := 0xFFFFFFFF#32 })))).map
      (fun t => (t.bus.frames, t.bus.changes, t.events)) = some (0#32, 0#32, []) := by decide +kernel

/-- V27, V28, V29. -/
theorem test_poll :
    [(1, 0x1A5#32), (2, 0xFFFFBEEF#32), (3, 0xC0FFEE#32)].map (fun p =>
        (nextOf (step (agent (.pollCycle p.2) (withB (block p.1 true true))))).map
          (fun t => (t.bus.liw, t.bus.frames, t.bus.changes))) =
    [some (0xA5#32, 1#32, 1#32), some (0xBEEF#32, 1#32, 1#32), some (0xC0FFEE#32, 1#32, 1#32)] := by
  decide +kernel

/-- The two arrival orders of 2.3. -/
theorem test_serial_order :
    assemble [false, false, false, false, true, false, false, false] = 0x08#32 ∧
    assemble [true, false, true, false, false, true, false, true,
      false, false, false, false, false, false, false, true] = 0xA501#32 := by decide

/-- R135, R152: each sampler's step is enabled only while it is the one selected and started. -/
theorem test_enables :
    [block 1 false true, block 1 true true, block 1 false false].map
      (fun b => (b.frameEnabled, b.pollEnabled)) = [(true, false), (false, true), (false, false)] := by
  decide

/-! ### LimitEndpoint -/

/-- S3: the packing. -/
theorem test_packing :
    [(0, 0), (2, 0), (15, 0), (0, 1), (2, 1), (15, 1)].map (fun p => aggMask p.1 p.2) =
      [0x1#32, 0x4#32, 0x8000#32, 0x10000#32, 0x40000#32, 0x80000000#32] := by decide

/-- V95, V96: the folded mask is the same from either motor. -/
theorem test_dual_axis :
    (nextOf (step (agent (.leMakeDualAxisMask 1)
      (State.reset.withCol (Collab.reset.setEndpoint 1 (newEndpoint 2 1 0 (.bus 3))))))).map
        (fun t => (t.col.endpoint 1).map (·.bitmask)) = some (some 0x00040004#32) := by decide +kernel

/-- V97. -/
theorem test_initialize :
    (nextOf (step (agent (.leInitialize 1) ((withB (block 1 false false)).withCol (side (endpoint2 0 3)))))).map
      (fun t => (t.bus.interest, t.bus.cbAt 3, t.col.limitMask)) = some (8#32, some 1, 4#32) := by
  decide +kernel

/-- V98, V99: refused, with nothing changed. -/
theorem test_initialize_refused :
    (nextOf (step (agent (.leInitialize 1) ((withB (block 1 false false)).withCol (side (endpoint2 7 6)))))).map
      (fun t => (t.leOutcomes, t.bus.interest, t.col.limitMask)) = some ([.errDirection], 0#32, 0#32) ∧
    (nextOf (step (agent (.leInitialize 1) ((withB (block 1 false false)).withCol (side (endpoint2 0 9)))))).map
      (fun t => (t.leOutcomes, t.bus.interest, t.col.limitMask)) =
        some ([.errAttach .pinRange], 0#32, 0#32) := by decide +kernel

/-- V101, V102: one edge through the whole block, on a `POS` endpoint, other bits preserved. -/
theorem test_edge_pos :
    (nextOf (step (agent (.frameDone 8 0) ((withB (running false)).withCol
      { side (endpoint2 0 3) with posMask := 0x10000#32, negMask := 0x10000#32 })))).map
      (fun t => (t.col.posMask, t.col.negMask, t.col.alarm, t.col.estops)) =
        some (0x00010004#32, 0x00010000#32, 1#8, 1) ∧
    (nextOf (step (agent (.frameDone 0 0) ((withB { running false with liw := 8#32, prev := 8#32 }).withCol
      { side (endpoint2 0 3) with posMask := 0x10004#32, negMask := 0x10004#32 })))).map
      (fun t => (t.col.posMask, t.col.negMask, t.col.alarm, t.col.estops)) =
        some (0x00010000#32, 0x00010004#32, 0#8, 0) := by decide +kernel

/-- V103, V106. -/
theorem test_edge_neg_both :
    (nextOf (step (agent (.frameDone 8 0) ((withB (running false)).withCol
      { side (endpoint2 1 3) with posMask := 0x10000#32, negMask := 0x10000#32 })))).map
      (fun t => (t.col.posMask, t.col.negMask, t.col.alarm)) =
        some (0x00010000#32, 0x00010004#32, 1#8) ∧
    (nextOf (step (agent (.frameDone 0 0) ((withB { running false with liw := 8#32, prev := 8#32 }).withCol
      { side (endpoint2 2 3) with posMask := 0x10004#32, negMask := 0x10004#32 })))).map
      (fun t => (t.col.posMask, t.col.negMask, t.col.alarm)) =
        some (0x00010000#32, 0x00010000#32, 0#8) := by decide +kernel

/-- The alarm path of 2.6: what is armed, what is latched, whether the stop is called. -/
theorem test_alarm_path :
    [(SysState.other, true, 0#8), (.other, true, 5#8), (.other, false, 0#8), (.alarmState, true, 0#8),
      (.configAlarm, true, 5#8), (.homing, true, 0#8)].map (fun p =>
        let c := leOnLevel id (endpoint2 0 3) true
          { Collab.reset with sysState := p.1, hardLimits := p.2.1, alarm := p.2.2 }
        (c.posMask, c.alarm, c.estops)) =
    [(4#32, 1#8, 1), (4#32, 5#8, 0), (4#32, 0#8, 0), (4#32, 0#8, 0), (4#32, 5#8, 0), (4#32, 0#8, 0)] := by
  decide +kernel

/-- Interleaving (2.6): `SYS_STATE=HOMING` between A3 and A4 suppresses the alarm, between A4 and A5 it
does not. -/
theorem test_interleaving :
    [[[], [], [], [EnvStep.setSysState .homing]], [[], [], [], [], [.setSysState .homing]]].map (fun l =>
      (nextOf (step (agent (.pollCycle 8) ((withB (running true)).withCol
        { side (endpoint2 2 3) with preempts := l })))).map (fun t => (t.col.alarm, t.col.estops))) =
    [some (0#8, 0), some (1#8, 1)] := by decide +kernel

/-- P4 step 19: a native pin change writes its mask, a latched cause stays. -/
theorem test_nativeChange :
    (nextOf (step (agent (.env (.nativeChange 34 true)) (State.reset.withCol
      { Collab.reset.setEndpoint 3 (setAttached (newEndpoint 0 1 1 (.native 34)) true) with
        hardLimits := true, alarm := 1#8, negMask := 0x20002#32 })))).map
      (fun t => (t.col.posMask, t.col.negMask, t.col.alarm, t.col.estops)) =
        some (0#32, 0x00030002#32, 1#8, 0) := by decide +kernel

/-- P4 step 29: teardown detaches, the masks keep their bits. -/
theorem test_teardown :
    (nextOf (step (agent (.leTeardown 1) ((withB (running true)).withCol
      { side (setAttached (endpoint2 2 3) true) with posMask := 4#32 })))).map
      (fun t => (t.bus.interest, t.bus.cbAt 3, t.col.posMask, (t.col.endpoint 1).map (·.attached))) =
        some (0#32, some 1, 4#32, some false) := by decide +kernel

/-! ### Witnesses: for every obligation with hypotheses, states and operands that meet them -/

/-- A running block with one `BOTH` endpoint of axis 0 attached under identifier 1 to pin 3. -/
def good : State := (withB (running true)).withCol (side (setAttached (newEndpoint 0 0 2 (.bus 3)) true))

/-- The same with the block stopped. -/
def goodStopped : State := good.withBus ((block 1 false false).subscribe 1 3)

theorem goodCol_inv : CollabInv good.col :=
  collabInv_of_fixed _ _ rfl (collabInv_setEndpoint _ (collabInv_of_empty _ rfl) _ _
    ⟨maxAxes_bounds.1, by decide, by decide, .inl rfl, by decide⟩)

theorem good_inv : Inv good := ⟨busInv_of_check _ (by decide +kernel), goodCol_inv⟩

theorem goodStopped_inv : Inv goodStopped := ⟨busInv_of_check _ (by decide +kernel), goodCol_inv⟩

theorem next_of_isSome (o : Host.Outcome State Fault Refusal) (h : (nextOf o).isSome = true) :
    ∃ t, o = .next t := by
  cases o with
  | next t => exact ⟨t, rfl⟩
  | fault f => cases h
  | refused r => cases h

theorem witness_IdleWithoutInput : State.reset.inputs = [] := rfl

theorem witness_StepRunsDecodedCommand :
    (offer 0x0300000000#40 State.reset).inputs = [.command 0x0300000000#40] ∧
    decode 0x0300000000#40 = .ok .start := ⟨rfl, rfl⟩

theorem witness_OfferedCommandRuns_DecodeOfEncode :
    (Instr.attach 255 31).wf = true ∧ (Instr.cfgMode true 7).wf = true ∧ (Instr.rdreg 63).wf = true ∧
    (Instr.detach 31).wf = true ∧ (Instr.setPinUsed 0).wf = true := by decide

theorem witness_RejectedWordsAreAnswered :
    (offer 0x1600000000#40 State.reset).inputs = .command 0x1600000000#40 :: [] ∧
    (0x1600000000#40).extractLsb' 32 8 ∉ [0x01#8, 0x02#8, 0x03#8, 0x04#8, 0x10#8, 0x11#8, 0x12#8,
      0x13#8, 0x14#8, 0x15#8, 0x20#8] ∧
    (0x2000000040#40).extractLsb' 32 8 = (matchWord .rdreg).extractLsb' 32 8 ∧
    0x2000000040#40 &&& maskWord .rdreg ≠ matchWord .rdreg ∧
    (0x200000003F#40).extractLsb' 32 8 = (matchWord .rdreg).extractLsb' 32 8 ∧
    0x200000003F#40 &&& maskWord .rdreg = matchWord .rdreg := by decide

theorem witness_EncodeOfDecode : decode 0x02000001FF#40 = .error .reservedBits ∧
    decode 0x0200000107#40 = .ok (.cfgMode true 7) := ⟨rfl, rfl⟩

/-- Refused while running; one and two identifiers set; all set; none set. -/
theorem witness_CfgPinsResult :
    (withB (block 1 false true)).bus.run = true ∧ State.reset.bus.run = false ∧
    (¬ (0#8 ≠ 0xFF#8 ∧ 0xFF#8 ≠ 0xFF#8 ∧ 0xFF#8 ≠ 0xFF#8) ∧
      ¬ (0#8 = 0xFF#8 ∧ 0xFF#8 = 0xFF#8 ∧ 0xFF#8 = 0xFF#8)) ∧
    (¬ (0xFF#8 ≠ 0xFF#8 ∧ 0xFE#8 ≠ 0xFF#8 ∧ 0#8 ≠ 0xFF#8) ∧
      ¬ (0xFF#8 = 0xFF#8 ∧ 0xFE#8 = 0xFF#8 ∧ 0#8 = 0xFF#8)) ∧
    (0xFE#8 ≠ 0xFF#8 ∧ 0#8 ≠ 0xFF#8 ∧ 0xFE#8 ≠ 0xFF#8) := by decide

/-- Running; 0 and 5 chips; `HI = 9` with one chip; `HI = 8` with one chip. -/
theorem witness_CfgModeResult :
    (withB (block 1 false true)).bus.run = true ∧ State.reset.bus.run = false ∧ 0 < 1 ∧ 4 < 5 ∧
    ((withB ((block 2 false false).subscribe 1 8)).bus.run = false ∧
      8 * 1 < (withB ((block 2 false false).subscribe 1 8)).bus.hi.toNat) ∧
    ((withB ((block 2 false false).subscribe 1 7)).bus.run = false ∧
      (withB ((block 2 false false).subscribe 1 7)).bus.hi.toNat ≤ 8 * 1) := by decide +kernel

theorem witness_StartResult :
    (block 1 false true).run = true ∧
    (State.reset.bus.run = false ∧ State.reset.bus.configured = false) ∧
    ((block 4 true false).run = false ∧ (block 4 true false).configured = true) := by decide

theorem witness_StopResult : State.reset.bus.run = false ∧ (block 1 true true).run = true := by decide

/-- One chip: pin 8 is refused, pin 7 accepted; four chips: pin 31 accepted. -/
theorem witness_AttachResult :
    (8 < 32 ∧ 8 * State.reset.bus.numChips ≤ 8) ∧ 7 < 8 * State.reset.bus.numChips ∧
    (31 < 32 ∧ 31 < 8 * (block 4 false false).numChips) := by decide

theorem witness_DetachResult_SetPinUsedResult : 0 < 32 ∧ 31 < 32 := by decide

theorem witness_ReconcileResult :
    (block 1 false true).run = true ∧ (busOf24 0x205#32).run = false ∧ BusInv (busOf24 0x205#32) :=
  ⟨by decide, by decide, busInv_of_check _ (by decide +kernel)⟩

theorem witness_RdregResult :
    (10 ≤ 10 ∧ 31 ≤ 31) ∧ (31 < 32 ∧ State.reset.bus.cbAt 31 = none) ∧
    ((block 4 false false).subscribe 255 31).cbAt 31 = some 255 ∧
    ((block 4 false false).subscribe 0 0).cbAt 0 = some 0 := by decide +kernel

theorem witness_EveryCommandCompletes : Inv good ∧ Inv goodStopped := ⟨good_inv, goodStopped_inv⟩

/-- Refused with a status, and accepted. -/
theorem witness_RefusalChangesNothing :
    (∃ t, exec .start good = .next t) ∧ ∃ t, exec .stop good = .next t :=
  ⟨⟨_, rfl⟩, ⟨_, rfl⟩⟩

theorem witness_OnlyReconcileReachesSubscribers :
    (∀ v, Instr.attach 9 3 ≠ .reconcile v) ∧ ∃ t, exec (.attach 9 3) good = .next t :=
  ⟨by simp, next_of_isSome _ (by decide +kernel)⟩

theorem witness_DispatchSetAndOrder_BoundedScan :
    goodStopped.bus.run = false ∧ BusInv goodStopped.bus ∧
    ∃ t, exec (.reconcile 0xFFFFFFFF#32) goodStopped = .next t :=
  ⟨rfl, goodStopped_inv.bus, next_of_isSome _ (by decide +kernel)⟩

theorem witness_EqualWordIsNoOperation :
    BusInv (busOf24 0x205#32) ∧ (busOf24 0x205#32).run = false :=
  ⟨busInv_of_check _ (by decide +kernel), rfl⟩

/-- Each producer, two words, an interested pin with its subscriber and pin 31 that is not interested. -/
theorem witness_EdgeDetectionCorrect :
    ∀ b ∈ [running false, running true, (block 1 false false).subscribe 1 3],
      let s := (withB b).withInputs ([(8#32, 0#32), (0#32, 5#32)].map fun v => producerInput b v.1 v.2)
      BusInv s.bus ∧ s.inputs = [(8#32, 0#32), (0#32, 5#32)].map (fun v => producerInput s.bus v.1 v.2) ∧
        s.bus.interest.getLsbD 3 = true ∧ s.bus.cbAt 3 = some 1 ∧ s.bus.interest.getLsbD 31 = false := by
  intro b hb
  simp only [List.mem_cons, List.not_mem_nil, or_false] at hb
  obtain rfl | rfl | rfl := hb <;>
    exact ⟨busInv_of_check _ (by decide +kernel), rfl, by decide, by decide +kernel, by decide⟩

theorem witness_SerialOrder :
    ([] : List Bool).length ≤ 32 ∧ (List.replicate 32 true).length ≤ 32 ∧
    31 < (List.replicate 32 true).length := by decide

theorem witness_PollAssembly_RawWordLayout_SampleIgnoresPadding : 0 ≤ 32 ∧ 32 ≤ 32 ∧ 31 < 32 ∧ 0 < 32 - 31 := by decide

theorem witness_FrameDoneResult :
    BusInv (running false) ∧ BusInv (running true) ∧
    (agent (.frameDone 8 7) (withB (running false))).inputs = [.agent (.frameDone 8 7)] ∧
    (running false).frameEnabled = true ∧ (running true).frameEnabled = false :=
  ⟨busInv_of_check _ (by decide +kernel), busInv_of_check _ (by decide +kernel), rfl, rfl, rfl⟩

theorem witness_PollCycleResult :
    BusInv (running false) ∧ BusInv (running true) ∧
    (agent (.pollCycle 8) (withB (running true))).inputs = [.agent (.pollCycle 8)] ∧
    (running true).pollEnabled = true ∧ (running false).pollEnabled = false :=
  ⟨busInv_of_check _ (by decide +kernel), busInv_of_check _ (by decide +kernel), rfl, rfl, rfl⟩

/-- Two frames with different paddings. -/
theorem witness_SamplerEquivalence :
    let frames := [(8#32, 0#32), (0#32, 0xFFFFFF#32)]
    let s := (withB (running false)).withInputs (frames.map fun f => Input.agent (.frameDone f.1 f.2))
    let p := (withB (running true)).withInputs (frames.map fun f => Input.agent (.pollCycle f.1))
    BusInv s.bus ∧ s.bus.frameEnabled = true ∧ s.col.preempts = [] ∧
    p = { s with
          bus := { s.bus with cfgMode := s.bus.cfgMode ||| 0x100#9 }
          inputs := frames.map fun f => Input.agent (.pollCycle f.1) } ∧
    s.inputs = frames.map (fun f => Input.agent (.frameDone f.1 f.2)) :=
  ⟨busInv_of_check _ (by decide +kernel), rfl, rfl, rfl, rfl⟩

/-- Axis 16, motor 2, the least axis with motor 1, and the least invalid direction. -/
theorem witness_ConstructResult :
    (agent (.leConstruct 1 0 1 2 (.bus 3)) State.reset).inputs = [.agent (.leConstruct 1 0 1 2 (.bus 3))] ∧
    Config.maxAxes ≤ 16 ∧ 1 < 2 ∧ 0 < Config.maxAxes ∧ 1 ≤ 1 ∧ 2 < 3 :=
  ⟨rfl, maxAxes_bounds.2, by decide, maxAxes_bounds.1, by decide, by decide⟩

/-- The endpoint of `side` stands under identifier 1 and under no other. -/
theorem side_endpoint (ep : Endpoint) (sub : SubId) :
    (side ep).endpoint sub = if 1#8 = sub then some ep else none := by
  have h := endpoint_setEndpoint Collab.reset 1#8 sub ep
  have hn : Collab.reset.endpoint sub = none := by
    have hlt : sub.toNat < 256 := sub.isLt
    simp [Collab.endpoint, Collab.reset, hlt]
  rw [hn] at h
  exact h

/-- An inert endpoint; pin 8 and pin 7 with one chip; a native pin. -/
theorem witness_InitializeResult :
    (agent (.leInitialize 1) State.reset).inputs = [.agent (.leInitialize 1)] ∧
    (∀ ep, (side ep).endpoint 1 = some ep) ∧
    [endpoint2 3 7, endpoint2 0 8, endpoint2 0 7, newEndpoint 2 0 0 (.native 34)].map
      (fun ep => (ep.participates, ep.source)) =
      [(false, .bus 7), (true, .bus 8), (true, .bus 7), (true, .native 34)] ∧
    8 * State.reset.bus.numChips ≤ (8 : Fin 32).val ∧
    (7 : Fin 32).val < 8 * State.reset.bus.numChips :=
  ⟨rfl, fun ep => side_endpoint ep 1, by decide, by decide, by decide⟩

theorem witness_DualAxisMaskResult :
    (agent (.leMakeDualAxisMask 1) State.reset).inputs = [.agent (.leMakeDualAxisMask 1)] ∧
    (side (newEndpoint 15 1 2 (.bus 0))).endpoint 1 = some (newEndpoint 15 1 2 (.bus 0)) ∧
    (newEndpoint 15 1 2 (.bus 0)).axis < 16 := ⟨rfl, side_endpoint _ 1, by decide⟩

theorem witness_TeardownResult :
    (agent (.leTeardown 1) State.reset).inputs = [.agent (.leTeardown 1)] ∧
    (side (endpoint2 0 31)).endpoint 1 = some (endpoint2 0 31) ∧ (endpoint2 0 31).source = .bus 31 ∧
    (side (newEndpoint 0 0 0 (.native 0))).endpoint 1 = some (newEndpoint 0 0 0 (.native 0)) :=
  ⟨rfl, side_endpoint _ 1, rfl, side_endpoint _ 1⟩

/-- Inert, and participating on pin 31, armed and not; the two ways to the handler; a native source. -/
theorem witness_EdgeHandlerResult :
    ((endpoint2 3 0).source = .bus 0 ∧ (endpoint2 3 0).participates = false) ∧
    ((endpoint2 2 31).source = .bus 31 ∧ (endpoint2 2 31).participates = true) ∧
    (0x80000000#32).getLsbD 31 = true ∧
    ((side (endpoint2 2 31)).sysState = .other ∧ (side (endpoint2 2 31)).hardLimits = true ∧
      (side (endpoint2 2 31)).alarm = 0#8) ∧
    ¬ (Collab.reset.hardLimits = true) ∧ (newEndpoint 0 1 1 (.native 34)).participates = true ∧
    (newEndpoint 0 1 1 (.native 34)).source = .native 34 := by decide

/-- Both contexts, with an environment that acts between the actions in task context. -/
theorem witness_InContext (allowed : EnvStep → Prop) (e f : EnvStep) (he : allowed e) (hf : allowed f) :
    InContext allowed id (side (endpoint2 0 3)) ∧
    InContext allowed preemptSlot { side (endpoint2 0 3) with preempts := [[e], [], [f]] } :=
  ⟨.inl rfl, .inr ⟨rfl, by simp [he, hf]⟩⟩

theorem witness_MaskSymmetry :
    [0, 1, 2].map (fun d => ((endpoint2 d 0).participates, (endpoint2 d 0).dir)) =
      [(true, .pos), (true, .neg), (true, .both)] ∧
    (endpoint2 0 0).bitmask.getLsbD 2 = true ∧ (endpoint2 0 0).bitmask.getLsbD 3 = false ∧
    InContext (fun e => ∀ n l, e ≠ .nativeChange n l) preemptSlot
      { side (endpoint2 0 3) with preempts := [[.clearAlarm], [], [.read .negMask]] } :=
  ⟨by decide, by decide, by decide, (witness_InContext _ _ _ (by simp) (by simp)).2⟩

/-- Homing, and a cause latched, each with a native pin changing between the actions. -/
theorem witness_AlarmLatchIdempotence :
    let c := { side (endpoint2 0 3) with preempts := [[.nativeChange 34 true], [], [.setHardLimits true]] }
    { c with sysState := .homing }.sysState ≠ .other ∧ { c with alarm := 5#8 }.alarm ≠ 0#8 ∧
    InContext (fun e => e ≠ .clearAlarm ∧ (∀ a, e ≠ .latchAlarm a) ∧ ∀ x, e ≠ .setSysState x)
      preemptSlot c :=
  ⟨by decide, by decide, (witness_InContext _ _ _ (by simp) (by simp)).2⟩

theorem witness_NoAlarmOnRelease :
    (∀ d : Collab, (envStep (.setSysState .homing) d).alarm = d.alarm ∧
      (envStep (.setSysState .homing) d).estops = d.estops) ∧
    InContext (fun e => e ≠ .clearAlarm ∧ (∀ a, e ≠ .latchAlarm a) ∧ ∀ n, e ≠ .nativeChange n true)
      preemptSlot
      { side (endpoint2 0 3) with preempts := [[.nativeChange 34 false], [], [.setSysState .other]] } ∧
    (endpoint2 0 31).source = .bus 31 ∧ (0x7FFFFFFF#32).getLsbD 31 = false :=
  ⟨fun _ => ⟨rfl, rfl⟩, (witness_InContext _ _ _ (by simp) (by simp)).2, rfl, by decide⟩

theorem witness_DualMotorFolding :
    let ep := { newEndpoint 15 0 2 (.bus 0) with bitmask := dualAxisMask 15 }
    ep.participates = true ∧ ep.axis < 16 ∧ ep.bitmask = dualAxisMask ep.axis ∧ ep.dir = .both ∧
    InContext (fun e => ∀ n l, e ≠ .nativeChange n l) preemptSlot
      { side (endpoint2 0 3) with preempts := [[.latchAlarm 5#8], [], [.read .posMask]] } :=
  ⟨by decide, by decide, by decide, by decide, (witness_InContext _ _ _ (by simp) (by simp)).2⟩

/-- No endpoint is bound to the pin; one attached endpoint is. -/
theorem witness_NativeChangeResult :
    let n : PinId := 34
    let ep := setAttached (newEndpoint 0 1 1 (.native n)) true
    (agent (.env (.nativeChange n true)) State.reset).inputs = [.agent (.env (.nativeChange n true))] ∧
    (∀ sub ep', (side (endpoint2 0 3)).endpoint sub = some ep' → ep'.source = .native n →
      ep'.attached = false) ∧
    ((side ep).endpoint 1 = some ep ∧ ep.source = .native n ∧ ep.attached = true ∧
      ∀ sub ep', (side ep).endpoint sub = some ep' → ep'.source = .native n → ep'.attached = true →
        sub = 1) := by
  refine ⟨rfl, ?_, side_endpoint _ 1, rfl, rfl, ?_⟩
  · intro sub ep' h
    rw [side_endpoint] at h
    split at h
    · cases h; intro hs; cases hs
    · cases h
  · intro sub ep' h _ _
    rw [side_endpoint] at h
    split at h
    · rename_i hs; exact hs.symm
    · cases h

/-- Two attached endpoints on one native pin, armed: the premises of the clause for any number. -/
theorem witness_NativeChangeResult_two :
    let n : PinId := 34
    let ep := setAttached (newEndpoint 0 0 0 (.native n)) true
    let fp := setAttached (newEndpoint 0 1 2 (.native n)) true
    let c := (side ep).setEndpoint 2 fp
    [2, 1].Nodup ∧ [2, 1].filterMap c.endpoint = [fp, ep] ∧
    (∀ sub, sub ∈ ([2, 1] : List SubId) ↔
      ∃ e, c.endpoint sub = some e ∧ e.source = .native n ∧ e.attached = true) ∧
    (fp.participates = true ∧ c.sysState = .other ∧ c.hardLimits = true ∧ c.alarm = 0#8) := by
  intro n ep fp c
  have hc : ∀ sub, c.endpoint sub =
      if 2#8 = sub then some fp else if 1#8 = sub then some ep else none := fun sub => by
    rw [endpoint_setEndpoint, side_endpoint]; rfl
  refine ⟨by decide, by simp [hc], fun sub => ⟨fun h => ?_, ?_⟩, by decide⟩
  · simp only [List.mem_cons, List.not_mem_nil, or_false] at h
    obtain rfl | rfl := h
    · exact ⟨fp, hc 2, rfl, rfl⟩
    · exact ⟨ep, hc 1, rfl, rfl⟩
  · rintro ⟨e, he, -, -⟩
    rw [hc] at he
    simp only [List.mem_cons, List.not_mem_nil, or_false]
    by_cases h2 : 2#8 = sub
    · exact .inl h2.symm
    · by_cases h1 : 1#8 = sub
      · exact .inr h1.symm
      · simp [h1, h2] at he

theorem witness_EnvStepResults :
    (agent (.env .clearAlarm) State.reset).inputs = [.agent (.env .clearAlarm)] ∧
    (agent (.env (.setHardLimits true)) State.reset).inputs = [.agent (.env (.setHardLimits true))] ∧
    (agent (.env (.setSysState .homing)) State.reset).inputs = [.agent (.env (.setSysState .homing))] ∧
    (agent (.env (.read .alarm)) State.reset).inputs = [.agent (.env (.read .alarm))] := ⟨rfl, rfl, rfl, rfl⟩

theorem witness_HandlerMapIsTotal :
    (side (endpoint2 0 3)).endpoint 1 = some (endpoint2 0 3) ∧
    (side (endpoint2 0 3)).endpoint 2 = none ∧ (2 : SubId) ∉ (side (endpoint2 0 3)).supplied :=
  ⟨side_endpoint _ 1, side_endpoint _ 2, by decide⟩

theorem witness_TaskHandlerRefinesInterruptHandler : (side (endpoint2 0 3)).preempts = [] := rfl

theorem witness_StepKeepsInvariant :
    Inv (agent (.pollCycle 8) good) ∧ ∃ t, step (agent (.pollCycle 8) good) = .next t :=
  ⟨⟨good_inv.bus, good_inv.col⟩, next_of_isSome _ (by decide +kernel)⟩

theorem witness_InvariantStatesNeverStop :
    Inv (agent (.pollCycle 8) good) ∧ Inv (agent (.leTeardown 2) good) ∧
    (agent (.leTeardown 2) good).col.endpoint 2 = none :=
  ⟨⟨good_inv.bus, good_inv.col⟩, ⟨good_inv.bus, good_inv.col⟩, by decide +kernel⟩

theorem witness_ConfigurationFrozenWhileRunning :
    (offer 0x0200000104#40 good).bus.run = true ∧ ∃ t, step (offer 0x0200000104#40 good) = .next t :=
  ⟨rfl, next_of_isSome _ (by decide +kernel)⟩

theorem witness_RunChangedOnlyByStartAndStop :
    ∃ t, step (offer 0x0400000000#40 good) = .next t ∧ t.bus.run ≠ (offer 0x0400000000#40 good).bus.run :=
  ⟨_, rfl, by decide⟩

theorem witness_NeverLowered_EveryEventIsGated :
    ∃ t, step (agent (.pollCycle 8) good) = .next t := next_of_isSome _ (by decide +kernel)

theorem witness_LogicalWordWriters :
    (nextOf (step (agent (.pollCycle 8) good))).map (fun t => decide (t.bus.liw ≠ good.bus.liw)) =
      some true := by decide +kernel

/-- A latched cause, and an environment that acts between the actions without clearing it. -/
theorem witness_LatchedAlarmIsKept :
    let s := (agent (.pollCycle 8) good).withCol
      { good.col with alarm := 5#8, preempts := [[.latchAlarm 1#8], [.setSysState .other]] }
    s.col.alarm ≠ 0#8 ∧ (∃ t, step s = .next t) ∧
    (∀ rest, s.inputs ≠ .agent (.env .clearAlarm) :: rest) ∧
    (∀ es ∈ s.col.preempts, EnvStep.clearAlarm ∉ es) :=
  ⟨by decide, next_of_isSome _ (by decide +kernel), fun rest h => (by cases h), by decide⟩

/-- Each of the three conditions, with an environment that reads between the actions. -/
theorem witness_EmergencyStopOnlyWhenArmed :
    let c := { good.col with preempts := [[.read .posMask], [.read .alarm]] }
    ∀ d ∈ [{ c with sysState := .homing }, { c with hardLimits := false }, { c with alarm := 1#8 }],
      (d.sysState ≠ .other ∨ d.hardLimits = false ∨ d.alarm ≠ 0#8) ∧ d.supplied = [] ∧
      (∀ es ∈ d.preempts, ∀ e ∈ es, ∃ r, e = EnvStep.read r) ∧
      ∃ t, step ((agent (.pollCycle 8) good).withCol d) = .next t := by
  intro c d hd
  simp only [List.mem_cons, List.not_mem_nil, or_false] at hd
  obtain rfl | rfl | rfl := hd
  · exact ⟨.inl (by decide), rfl, by simp [c], next_of_isSome _ (by decide +kernel)⟩
  · exact ⟨.inr (.inl rfl), rfl, by simp [c], next_of_isSome _ (by decide +kernel)⟩
  · exact ⟨.inr (.inr (by decide)), rfl, by simp [c], next_of_isSome _ (by decide +kernel)⟩

end Sys2Proof.Tests
end

section
/-! PROOF. The state (10_state.md): what one step can do to the block and to the collaborators, said once,
and from it the invariants, the frames and the writers of every register. -/

namespace Sys2Proof.Machine

/-! ### Commands: what all but RECONCILE leave alone (R25, R41, R68) -/

/-- A command other than `RECONCILE` touches neither the data registers nor anything beyond the block. -/
theorem Answered.frame_of_not_reconcile {s t : State} {i : Instr} (h : Answered s i t)
    (hi : ∀ v, i ≠ .reconcile v) :
    t.bus.liw = s.bus.liw ∧ t.bus.prev = s.bus.prev ∧ t.bus.fb = s.bus.fb ∧
    t.bus.frames = s.bus.frames ∧ t.bus.changes = s.bus.changes ∧
    t.col = s.col ∧ t.events = s.events ∧ t.leOutcomes = s.leOutcomes := by
  cases h with
  | reconcile value u hrun hu => exact absurd rfl (hi value)
  | _ => simp

/-! ### What a delivery does to each side -/

/-- A reconciliation changes the collaborators by running handlers alone (R172). -/
theorem reconcile_col (slot : Collab → Collab) (nv : Word) (s t : State)
    (h : reconcile slot nv s = .ok t) : ∃ es, t.col = handled slot nv es s.col :=
  ⟨owedEvents s.bus nv, by rw [reconcile_spec slot nv s t h]⟩

/-- So does a sampler's delivery, which may run none (R135, R152). -/
theorem deliver_col (slot : Collab → Collab) (sample : Word) (s t : State)
    (h : deliver slot sample s = .ok t) : ∃ es, t.col = handled slot sample es s.col := by
  obtain ⟨-, rfl⟩ | ⟨-, hr⟩ := deliver_cases slot sample s t h
  · exact ⟨[], rfl⟩
  · exact reconcile_col slot sample (s.withBus s.bus.countFrame.countChange) t hr

/-- A delivery writes counters alone, or also moves `LIW` and `PREV` to the sample (R35, R135, R152). -/
theorem deliver_bus (slot : Collab → Collab) (sample : Word) (s t : State)
    (h : deliver slot sample s = .ok t) :
    t.bus = s.bus.countFrame ∨ t.bus = ((s.bus.countFrame.countChange).commit sample).catchUp sample := by
  obtain ⟨-, rfl⟩ | ⟨-, hr⟩ := deliver_cases slot sample s t h
  · exact .inl rfl
  · exact .inr (reconcile_frame slot sample _ t hr).1

/-! ### What a step does to the block -/

/-- The inputs that may deliver a word to the bus: an enabled sampler step, or `RECONCILE` while no sampler
is started (R21, R25, R135, R152, R170). -/
def MayDeliver (b : Bus) (input : Input) : Prop :=
  (∃ snap pad, input = .agent (.frameDone snap pad) ∧ b.frameEnabled = true) ∨
  (∃ snap, input = .agent (.pollCycle snap) ∧ b.pollEnabled = true) ∨
  (∃ w v, input = .command w ∧ decode w = .ok (.reconcile v) ∧ b.run = false)

/-- Everything a step can have done to the block's registers, with the gate each write goes through. -/
inductive BusWrite (s : State) : Bus → Prop where
  | kept : BusWrite s s.bus
  | counted (fb frames : Word) : BusWrite s { s.bus with fb := fb, frames := frames }
  | delivered (nv fb frames changes : Word) (input : Input) (rest : List Input)
      (hin : s.inputs = input :: rest) (hgate : MayDeliver s.bus input) :
      BusWrite s { s.bus with liw := nv, prev := nv, fb := fb, frames := frames, changes := changes }
  | cfgPins (clk latch data : PinId) (hrun : s.bus.run = false)
      (hset : pinsSet clk latch data ≠ 1 ∧ pinsSet clk latch data ≠ 2) :
      BusWrite s (s.bus.setCfgPins (packCfgPins clk latch data))
  | cfgMode (shiftIn : Bool) (chips : Nat) (hrun : s.bus.run = false) (h1 : 1 ≤ chips) (h4 : chips ≤ 4)
      (hhi : s.bus.hi.toNat ≤ 8 * chips) : BusWrite s (s.bus.setCfgMode (packCfgMode shiftIn chips))
  | start (w : Command) (rest : List Input) (hin : s.inputs = .command w :: rest)
      (hd : decode w = .ok .start) (hcfg : s.bus.configured = true) : BusWrite s (s.bus.setRun true)
  | stop (w : Command) (rest : List Input) (hin : s.inputs = .command w :: rest)
      (hd : decode w = .ok .stop) : BusWrite s (s.bus.setRun false)
  | subscribe (sub : SubId) (pin : Nat) (hpin : pin < s.bus.wiredBits) :
      BusWrite s (s.bus.subscribe sub pin)
  | unsubscribe (pin : Nat) : BusWrite s (s.bus.unsubscribe pin)
  | markUsed (pin : Nat) : BusWrite s (s.bus.markUsed pin)

/-- A delivery is one of the writes of `BusWrite`, from any frame buffer it finds. -/
theorem busWrite_of_deliver (slot : Collab → Collab) (sample fb : Word) (s u t : State) (input : Input)
    (rest : List Input) (hu : u.bus = s.bus.storeFrame fb) (hin : s.inputs = input :: rest)
    (hgate : MayDeliver s.bus input) (h : deliver slot sample u = .ok t) : BusWrite s t.bus := by
  obtain hb | hb := deliver_bus slot sample u t h
  · rw [hb, hu]
    exact .counted fb _
  · rw [hb, hu]
    exact .delivered sample fb _ _ input rest hin hgate

/-- A command at the port makes one of the writes of `BusWrite`. -/
theorem busWrite_of_answered (s t : State) (w : Command) (rest : List Input) (i : Instr)
    (hin : s.inputs = .command w :: rest) (hd : decode w = .ok i) (h : Answered s i t) :
    BusWrite s t.bus := by
  cases h with
  | refused st hst => exact .kept
  | read d hi => exact .kept
  | cfgPins clk latch data hrun hset => exact .cfgPins clk latch data hrun hset
  | cfgMode shiftIn chips hrun h1 h4 hhi => exact .cfgMode shiftIn chips hrun h1 h4 hhi
  | start hrun hcfg => exact .start w rest hin hd hcfg
  | stop hrun => exact .stop w rest hin hd
  | attach sub pin hpin => exact .subscribe sub pin hpin
  | detach pin => exact .unsubscribe pin
  | setPinUsed pin => exact .markUsed pin
  | reconcile value u hrun hu =>
    rw [State.respond_bus, (reconcile_frame preemptSlot value s u hu).1]
    exact .delivered value s.bus.fb s.bus.frames s.bus.changes _ rest hin
      (.inr (.inr ⟨w, value, rfl, hd, hrun⟩))

/-- A step that answers a next state has made one of the writes of `BusWrite`. -/
theorem step_busWrite (s t : State) (h : step s = .next t) : BusWrite s t.bus := by
  cases step_stepped s t h with
  | idle hin => exact .kept
  | command w rest i _ hin hd ht => exact busWrite_of_answered s t w rest i hin hd ht
  | rejected w rest e hin hd => exact .kept
  | skipped a rest hin ha => exact .kept
  | frame snap pad rest _ hin hen ht =>
    exact busWrite_of_deliver id _ (rawWord s.bus.wiredBits snap pad) s
      ((s.withInputs rest).withBus (s.bus.storeFrame _)) t _ rest rfl hin (.inl ⟨snap, pad, rfl, hen⟩) ht
  | poll snap rest _ hin hen ht =>
    exact busWrite_of_deliver preemptSlot _ s.bus.fb s (s.withInputs rest) t _ rest rfl hin
      (.inr (.inl ⟨snap, rfl, hen⟩)) ht
  | leBuild sub axis motor dir source rest hin =>
    obtain ⟨-, ht⟩ | ⟨-, -, o, ht⟩ := leConstruct_cases sub axis motor dir source (s.withInputs rest)
    all_goals rw [ht]; exact .kept
  | leInit sub rest _ hin ht =>
    obtain ⟨ep, -, ⟨o, rfl⟩ | ⟨-, b, ⟨p, -, hp, rfl⟩ | ⟨n, -, rfl⟩, rfl⟩⟩ :=
      leInitialize_cases sub _ t ht
    · exact .kept
    · exact .subscribe sub p.val hp
    · exact .kept
  | leFold sub rest _ hin ht =>
    obtain ⟨ep, -, rfl⟩ := leMakeDualAxisMask_cases sub _ t ht
    exact .kept
  | leDrop sub rest _ hin ht =>
    obtain ⟨ep, -, b, ⟨p, -, rfl⟩ | ⟨n, -, rfl⟩, rfl⟩ := leTeardown_cases sub _ t ht
    · exact .unsubscribe p.val
    · exact .kept
  | env e rest hin => exact .kept

/-! ### What a step does to the collaborators -/

/-- Everything a step can have done to the collaborators' state. -/
inductive ColWrite (s : State) : Collab → Prop where
  | kept : ColWrite s s.col
  | handlers (slot : Collab → Collab) (hslot : slot = id ∨ slot = preemptSlot) (nv : Word)
      (es : List Event) : ColWrite s (handled slot nv es s.col)
  | env (e : EnvStep) (rest : List Input) (hin : s.inputs = .agent (.env e) :: rest) :
      ColWrite s (envStep e s.col)
  | built (sub : SubId) (axis motor dir : Nat) (source : Source) (haxis : axis < Config.maxAxes)
      (hmotor : motor ≤ 1) : ColWrite s (s.col.setEndpoint sub (newEndpoint axis motor dir source))
  | initialized (sub : SubId) (ep : Endpoint) (hep : s.col.endpoint sub = some ep)
      (hpart : ep.participates = true) :
      ColWrite s ((s.col.setEndpoint sub (setAttached ep true)).orLimitMask ep.bitmask)
  | folded (sub : SubId) (ep : Endpoint) (hep : s.col.endpoint sub = some ep) :
      ColWrite s (s.col.setEndpoint sub { ep with bitmask := dualAxisMask ep.axis })
  | tornDown (sub : SubId) (ep : Endpoint) (hep : s.col.endpoint sub = some ep) :
      ColWrite s (s.col.setEndpoint sub (setAttached ep false))

/-- A command reaches the collaborators through the handlers of `RECONCILE` alone (R25). -/
theorem colWrite_of_answered (s t : State) (i : Instr) (h : Answered s i t) : ColWrite s t.col := by
  cases h with
  | reconcile value u hrun hu =>
    obtain ⟨es, he⟩ := reconcile_col preemptSlot value s u hu
    rw [State.respond_col, he]
    exact .handlers preemptSlot (.inr rfl) value es
  | _ => exact .kept

/-- A step that answers a next state has made one of the writes of `ColWrite`. -/
theorem step_colWrite (s t : State) (h : step s = .next t) : ColWrite s t.col := by
  cases step_stepped s t h with
  | idle hin => exact .kept
  | command w rest i _ hin hd ht => exact colWrite_of_answered s t i ht
  | rejected w rest e hin hd => exact .kept
  | skipped a rest hin ha => exact .kept
  | frame snap pad rest _ hin hen ht =>
    obtain ⟨es, he⟩ := deliver_col id _ _ t ht
    rw [he]
    exact .handlers id (.inl rfl) _ es
  | poll snap rest _ hin hen ht =>
    obtain ⟨es, he⟩ := deliver_col preemptSlot _ _ t ht
    rw [he]
    exact .handlers preemptSlot (.inr rfl) _ es
  | leBuild sub axis motor dir source rest hin =>
    obtain ⟨-, ht⟩ | ⟨haxis, hmotor, o, ht⟩ :=
      leConstruct_cases sub axis motor dir source (s.withInputs rest)
    · rw [ht]
      exact .kept
    · rw [ht]
      exact .built sub axis motor dir source haxis hmotor
  | leInit sub rest _ hin ht =>
    obtain ⟨ep, hep, ⟨o, rfl⟩ | ⟨hpart, b, -, rfl⟩⟩ := leInitialize_cases sub _ t ht
    · exact .kept
    · exact .initialized sub ep hep hpart
  | leFold sub rest _ hin ht =>
    obtain ⟨ep, hep, rfl⟩ := leMakeDualAxisMask_cases sub _ t ht
    exact .folded sub ep hep
  | leDrop sub rest _ hin ht =>
    obtain ⟨ep, hep, b, -, rfl⟩ := leTeardown_cases sub _ t ht
    exact .tornDown sub ep hep
  | env e rest hin => exact .env e rest hin

/-! ### The block's invariant (R34, R38) -/

/-- An accepted `CFG_PINS` sets all or none of the pins, and no sampler is started (R232). -/
theorem busInv_setCfgPins (b : Bus) (hI : BusInv b) (clk latch data : PinId) (hrun : b.run = false)
    (hset : pinsSet clk latch data ≠ 1 ∧ pinsSet clk latch data ≠ 2) :
    BusInv (b.setCfgPins (packCfgPins clk latch data)) := by
  obtain ⟨hclk, hlatch, hdata⟩ := setCfgPins_fields b clk latch data
  refine ⟨hI.chips, hI.modeReserved, hI.hiBound, hI.interestBelow, hI.subscribed, hI.prevIsLiw, ?_, ?_⟩
  · rw [hclk, hlatch, hdata]
    exact (pinsSet_whole_iff clk latch data).mp hset
  · intro h
    rw [Bus.setCfgPins_run, hrun] at h
    cases h

/-- An accepted `CFG_MODE` has 1 to 4 chips and leaves no subscription beyond them (R234). -/
theorem busInv_setCfgMode (b : Bus) (hI : BusInv b) (shiftIn : Bool) (chips : Nat) (h1 : 1 ≤ chips)
    (h4 : chips ≤ 4) (hhi : b.hi.toNat ≤ 8 * chips) :
    BusInv (b.setCfgMode (packCfgMode shiftIn chips)) := by
  obtain ⟨hchips, -, hreserved⟩ := setCfgMode_fields b shiftIn chips h4
  refine ⟨?_, hreserved, ?_, hI.interestBelow, hI.subscribed, hI.prevIsLiw, hI.pinsLegal,
    hI.runConfigured⟩
  · rw [hchips]
    exact ⟨h1, h4⟩
  · rw [hchips]
    exact hhi

/-- `RUN` may become 1 where the pins are configured, and 0 anywhere (R236, R237). -/
theorem busInv_setRun (b : Bus) (hI : BusInv b) (r : Bool) (h : r = true → b.configured = true) :
    BusInv (b.setRun r) :=
  ⟨hI.chips, hI.modeReserved, hI.hiBound, hI.interestBelow, hI.subscribed, hI.prevIsLiw, hI.pinsLegal, h⟩

/-- The invariants do not speak of `FB`, `FRAMES` and `PINS_USED`. -/
theorem busInv_unchecked (b : Bus) (hI : BusInv b) (fb frames pinsUsed : Word) :
    BusInv { b with fb := fb, frames := frames, pinsUsed := pinsUsed } :=
  ⟨hI.chips, hI.modeReserved, hI.hiBound, hI.interestBelow, hI.subscribed, hI.prevIsLiw, hI.pinsLegal,
    hI.runConfigured⟩

/-- Every write of a step keeps the block's invariant. -/
theorem BusWrite.busInv {s : State} {b : Bus} (h : BusWrite s b) (hI : BusInv s.bus) : BusInv b := by
  cases h with
  | kept => exact hI
  | counted fb frames => exact busInv_unchecked s.bus hI fb frames s.bus.pinsUsed
  | delivered nv fb frames changes input rest hin hgate =>
    exact busInv_delivered s.bus hI nv fb frames changes
  | cfgPins clk latch data hrun hset => exact busInv_setCfgPins s.bus hI clk latch data hrun hset
  | cfgMode shiftIn chips hrun h1 h4 hhi => exact busInv_setCfgMode s.bus hI shiftIn chips h1 h4 hhi
  | start w rest hin hd hcfg => exact busInv_setRun s.bus hI true fun _ => hcfg
  | stop w rest hin hd => exact busInv_setRun s.bus hI false fun hr => by cases hr
  | subscribe sub pin hpin => exact busInv_subscribe s.bus hI sub pin hpin
  | unsubscribe pin => exact busInv_unsubscribe s.bus hI pin
  | markUsed pin => exact busInv_unchecked s.bus hI s.bus.fb s.bus.frames _

/-! ### The endpoints' invariant (R44) -/

/-- Handlers write no endpoint record, `LIMIT_MASK` or parameter, in either context (R41, R181). -/
theorem handled_fixed (slot : Collab → Collab) (hslot : slot = id ∨ slot = preemptSlot) (nv : Word)
    (es : List Event) (c : Collab) : (handled slot nv es c).fixed = c.fixed := by
  have hs : ∀ d, (slot d).fixed = d.fixed := by
    obtain rfl | rfl := hslot
    · exact fun d => rfl
    · exact preemptSlot_fixed
  induction es generalizing c with
  | nil => rfl
  | cons e es ih => exact (ih _).trans (runHandler_fixed slot hs nv e.sub e.pin e.lvl c)

/-- An endpoint that participates may be attached; any may be detached (R204, R209). -/
theorem endpointInv_setAttached (ep : Endpoint) (hI : EndpointInv ep) (a : Bool)
    (h : a = true → ep.participates = true) : EndpointInv (setAttached ep a) :=
  ⟨hI.axisInRange, hI.motorInRange, hI.participatesIff, hI.bitmaskIs, h⟩

/-- Folding both motors into one mask keeps a record good (R208). -/
theorem endpointInv_dualAxisMask (ep : Endpoint) (hI : EndpointInv ep) :
    EndpointInv { ep with bitmask := dualAxisMask ep.axis } :=
  ⟨hI.axisInRange, hI.motorInRange, hI.participatesIff, .inr rfl, hI.attachedParticipates⟩

/-- Every write of a step keeps every endpoint record good. -/
theorem ColWrite.collabInv {s : State} {c : Collab} (h : ColWrite s c) (hI : CollabInv s.col) :
    CollabInv c := by
  cases h with
  | kept => exact hI
  | handlers slot hslot nv es => exact collabInv_of_fixed s.col _ (handled_fixed slot hslot nv es s.col) hI
  | env e rest hin => exact collabInv_of_fixed s.col _ (envStep_fixed e s.col) hI
  | built sub axis motor dir source haxis hmotor =>
    exact collabInv_setEndpoint s.col hI sub _
      (endpointInv_newEndpoint axis motor dir source haxis hmotor)
  | initialized sub ep hep hpart =>
    exact collabInv_setEndpoint s.col hI sub _
      (endpointInv_setAttached ep (hI sub ep hep) true fun _ => hpart)
  | folded sub ep hep =>
    exact collabInv_setEndpoint s.col hI sub _ (endpointInv_dualAxisMask ep (hI sub ep hep))
  | tornDown sub ep hep =>
    exact collabInv_setEndpoint s.col hI sub _
      (endpointInv_setAttached ep (hI sub ep hep) false fun ha => by cases ha)

/-- Settles O51: each side keeps its part under every write a step can make to it. -/
theorem stepKeepsInvariant : Obligations.StepKeepsInvariant := by
  unfold Obligations.StepKeepsInvariant
  intro s t hI h
  exact ⟨(step_busWrite s t h).busInv hI.bus, (step_colWrite s t h).collabInv hI.col⟩

/-! ### Who writes which register of the block -/

/-- Settles O25, by what a command can have done. -/
theorem onlyReconcileReachesSubscribers : Obligations.OnlyReconcileReachesSubscribers := by
  unfold Obligations.OnlyReconcileReachesSubscribers
  intro i s t hi h
  exact (exec_answered i s t h).frame_of_not_reconcile hi

/-- Settles O53: the two writes of a configuration register need `RUN = 0`. -/
theorem configurationFrozenWhileRunning : Obligations.ConfigurationFrozenWhileRunning := by
  unfold Obligations.ConfigurationFrozenWhileRunning
  intro s t hrun h
  generalize t.bus = b, step_busWrite s t h = hw
  cases hw with
  | cfgPins clk latch data hstopped hset => rw [hrun] at hstopped; cases hstopped
  | cfgMode shiftIn chips hstopped h1 h4 hhi => rw [hrun] at hstopped; cases hstopped
  | _ => exact ⟨rfl, rfl⟩

/-- Settles O54: every other write keeps `RUN`. -/
theorem runChangedOnlyByStartAndStop : Obligations.RunChangedOnlyByStartAndStop := by
  unfold Obligations.RunChangedOnlyByStartAndStop
  intro s t h hne
  have hw := step_busWrite s t h
  generalize t.bus = b at hne hw ⊢
  cases hw with
  | start w rest hin hd hcfg => exact ⟨w, rest, hin, .inl ⟨hd, rfl⟩⟩
  | stop w rest hin hd => exact ⟨w, rest, hin, .inr ⟨hd, rfl⟩⟩
  | _ => exact absurd rfl hne

/-- Settles O56: every write but a delivery keeps `LIW` and `PREV`. -/
theorem logicalWordWriters : Obligations.LogicalWordWriters := by
  unfold Obligations.LogicalWordWriters
  intro s t h hne
  have hw := step_busWrite s t h
  generalize t.bus = b at hne hw
  cases hw with
  | delivered nv fb frames changes input rest hin hgate => exact ⟨input, rest, hin, hgate⟩
  | _ => exact absurd hne (by simp)

/-! ### What is never lowered (R30, R31, R37, R204) -/

/-- Whatever `CFG_MODE` holds, fewer than 63 bits are wired, so a raised `HI` fits its register. -/
theorem wiredBits_lt_63 (b : Bus) : b.wiredBits < 63 := by
  have := (b.cfgMode.extractLsb' 0 3).isLt
  unfold Bus.wiredBits Bus.numChips
  omega

/-- Setting a bit clears none. -/
theorem setBit_keeps (w : Word) (i j : Nat) (h : w.getLsbD j = true) : (setBit w i).getLsbD j = true := by
  rw [setBit, BitVec.getLsbD_or, h, Bool.true_or]

/-- Every write of a step keeps `HI` as high, every used pin used and every entry of `CB` written. -/
theorem BusWrite.neverLowered {s : State} {b : Bus} (h : BusWrite s b) :
    s.bus.hi.toNat ≤ b.hi.toNat ∧
    (∀ i, s.bus.pinsUsed.getLsbD i = true → b.pinsUsed.getLsbD i = true) ∧
    (∀ i, s.bus.cbAt i ≠ none → b.cbAt i ≠ none) := by
  cases h with
  | subscribe sub pin hpin =>
    have hlt := wiredBits_lt_63 s.bus
    have hhi := raisedHi_toNat s.bus.hi pin (by omega)
    refine ⟨?_, fun i hi => hi, fun i hi => ?_⟩
    · rw [Bus.subscribe_hi, hhi]
      exact Nat.le_max_left _ _
    · rw [cbAt_subscribe]
      split
      · exact Option.some_ne_none sub
      · exact hi
  | markUsed pin => exact ⟨Nat.le_refl _, fun i hi => setBit_keeps _ pin i hi, fun i hi => hi⟩
  | _ => exact ⟨Nat.le_refl _, fun i hi => hi, fun i hi => hi⟩

/-- What writes no fixed word of the collaborators keeps `LIMIT_MASK`. -/
theorem limitMask_of_fixed (c d : Collab) (h : d.fixed = c.fixed) : d.limitMask = c.limitMask :=
  congrArg (fun p => p.2.1) h

/-- Every write of a step keeps every set bit of `LIMIT_MASK` (R41, R204). -/
theorem ColWrite.limitMask_keeps {s : State} {c : Collab} (h : ColWrite s c) (i : Nat)
    (hi : s.col.limitMask.getLsbD i = true) : c.limitMask.getLsbD i = true := by
  cases h with
  | handlers slot hslot nv es =>
    rw [limitMask_of_fixed s.col _ (handled_fixed slot hslot nv es s.col)]
    exact hi
  | env e rest hin =>
    rw [limitMask_of_fixed s.col _ (envStep_fixed e s.col)]
    exact hi
  | initialized sub ep hep hpart =>
    rw [Collab.orLimitMask_limitMask, Collab.setEndpoint_limitMask, BitVec.getLsbD_or, hi, Bool.true_or]
  | _ => exact hi

/-- Settles O55: the block's three clauses and the collaborators' one, each over its own writes. -/
theorem neverLowered : Obligations.NeverLowered := by
  unfold Obligations.NeverLowered
  intro s t h
  obtain ⟨hhi, hused, hcb⟩ := (step_busWrite s t h).neverLowered
  exact ⟨hhi, hused, (step_colWrite s t h).limitMask_keeps, hcb⟩

/-! ### A latched alarm cause (R42, R317) -/

/-- With a cause latched, line A5 of the edge handler does nothing. -/
theorem leRaise_of_latched (c : Collab) (h : c.alarm ≠ 0#8) : leRaise c = c := by
  rw [leRaise_eq, if_neg h]

/-- With a cause latched, the compare-and-swap does nothing (R77). -/
theorem casAlarm_of_latched (c : Collab) (a : Alarm) (h : c.alarm ≠ 0#8) : c.casAlarm a = c := by
  rw [casAlarm_eq, if_neg h]

/-- A native pin change keeps a latched cause (R210). -/
theorem nativeChange_keeps_latched (n : PinId) (lvl : Bool) (a : Alarm) (ha : a ≠ 0#8) (c : Collab)
    (hc : c.alarm = a) : (nativeChange n lvl c).alarm = a := by
  refine List.foldlRecOn (motive := fun d : Collab => d.alarm = a) allSubs _ hc ?_
  intro d hd sub _
  unfold nativeChangeOne
  split
  · split
    · refine leOnLevel_keeps (fun d => d.alarm = a) (fun _ _ h => h) (fun _ _ h => h) id
        (fun _ h => h) (fun d h _ => ?_) _ _ _ hd
      rw [id, leRaise_of_latched d (h ▸ ha)]
      exact h
    · exact hd
  · exact hd

/-- Every step of the environment but `CLEAR_ALARM` keeps a latched cause (R42, R211). -/
theorem envStep_keeps_latched (e : EnvStep) (he : e ≠ .clearAlarm) (a : Alarm) (ha : a ≠ 0#8)
    (c : Collab) (hc : c.alarm = a) : (envStep e c).alarm = a := by
  cases e with
  | nativeChange n lvl => exact nativeChange_keeps_latched n lvl a ha c hc
  | latchAlarm cause =>
    rw [envStep, casAlarm_of_latched c cause (hc ▸ ha)]
    exact hc
  | clearAlarm => exact absurd rfl he
  | setSysState x => exact hc
  | setHardLimits b => exact hc
  | read r => exact hc

/-- A supplied handler keeps a latched cause (R77). -/
theorem applyEffect_keeps_latched (e : Config.HandlerEffect) (c : Collab) (hc : c.alarm ≠ 0#8) :
    (applyEffect e c).alarm = c.alarm := by
  unfold applyEffect
  dsimp only
  rw [casAlarm_of_latched _ _ (by exact hc)]
  split <;> rfl

/-- A supplied handler leaves the environment's remaining choices alone. -/
theorem applyEffect_preempts (e : Config.HandlerEffect) (c : Collab) :
    (applyEffect e c).preempts = c.preempts := by
  unfold applyEffect
  dsimp only
  rw [casAlarm_eq]
  split <;> split <;> rfl

/-- What a handler keeps: the cause `a` is latched, and nothing still to fall between the actions of the
context `slot` clears it. -/
def StaysLatched (slot : Collab → Collab) (a : Alarm) (c : Collab) : Prop :=
  InContext (· ≠ .clearAlarm) slot c ∧ c.alarm = a

/-- A write of neither `ALARM` nor the environment's choices keeps it. -/
theorem StaysLatched.of_eq {slot : Collab → Collab} {a : Alarm} {c d : Collab} (h : StaysLatched slot a c)
    (hp : d.preempts = c.preempts) (hd : d.alarm = c.alarm) : StaysLatched slot a d :=
  ⟨h.1.of_preempts hp, hd.trans h.2⟩

/-- The slot before an action keeps it (R73). -/
theorem StaysLatched.slot {slot : Collab → Collab} {a : Alarm} (ha : a ≠ 0#8) {c : Collab}
    (h : StaysLatched slot a c) : StaysLatched slot a (slot c) :=
  InContext.keeps (fun d => d.alarm = a) (fun _ _ h => h)
    (fun e d he hd => envStep_keeps_latched e he a ha d hd) h.1 h.2

/-- Lines A1 to A5 keep it (R206). -/
theorem StaysLatched.leOnEdge {slot : Collab → Collab} {a : Alarm} (ha : a ≠ 0#8) (liw : Word)
    (ep : Endpoint) {c : Collab} (h : StaysLatched slot a c) :
    StaysLatched slot a (leOnEdge slot liw ep c) := by
  refine leOnLevel_keeps (StaysLatched slot a) (fun _ _ h => h.of_eq rfl rfl)
    (fun _ _ h => h.of_eq rfl rfl) slot (fun _ h => h.slot ha) (fun d hd _ => ?_) ep _ _ ?_
  · have hs := hd.slot ha
    rw [leRaise_of_latched _ (hs.2 ▸ ha)]
    exact hs
  · cases ep.source with
    | bus p => exact h.slot ha
    | native n => exact (h.slot ha).of_eq rfl rfl

/-- The handler of every subscriber keeps it (R175). -/
theorem StaysLatched.runHandler {slot : Collab → Collab} {a : Alarm} (ha : a ≠ 0#8) (liw : Word)
    (sub : SubId) (pin : Nat) (lvl : Bool) {c : Collab} (h : StaysLatched slot a c) :
    StaysLatched slot a (runHandler slot liw sub pin lvl c) := by
  unfold Machine.runHandler
  split
  · exact h.leOnEdge ha liw _
  · split
    · have hs := h.slot ha
      exact hs.of_eq (applyEffect_preempts _ _) (applyEffect_keeps_latched _ _ (hs.2 ▸ ha))
    · exact h

/-- The handlers of any events keep it. -/
theorem StaysLatched.handled {slot : Collab → Collab} {a : Alarm} (ha : a ≠ 0#8) (nv : Word)
    (es : List Event) {c : Collab} (h : StaysLatched slot a c) :
    StaysLatched slot a (handled slot nv es c) :=
  List.foldlRecOn es _ h fun _ hd e _ => hd.runHandler ha nv e.sub e.pin e.lvl

/-- Every write of a step keeps a latched cause, unless the environment clears it. -/
theorem ColWrite.alarm_eq {s : State} {c : Collab} (h : ColWrite s c) (ha : s.col.alarm ≠ 0#8)
    (hin : ∀ rest, s.inputs ≠ .agent (.env .clearAlarm) :: rest)
    (hpre : ∀ es ∈ s.col.preempts, EnvStep.clearAlarm ∉ es) : c.alarm = s.col.alarm := by
  cases h with
  | handlers slot hslot nv es =>
    have hctx : InContext (· ≠ .clearAlarm) slot s.col :=
      hslot.imp_right fun hs => ⟨hs, fun es hes e he hclear => hpre es hes (hclear ▸ he)⟩
    exact (StaysLatched.handled ha nv es ⟨hctx, rfl⟩).2
  | env e rest hhead =>
    exact envStep_keeps_latched e (fun he => hin rest (he ▸ hhead)) _ ha s.col rfl
  | _ => rfl

/-- Settles O58: the invariant `StaysLatched` carries it through the handlers of a delivery. -/
theorem latchedAlarmIsKept : Obligations.LatchedAlarmIsKept := by
  unfold Obligations.LatchedAlarmIsKept
  intro s t ha h hin hpre
  exact (step_colWrite s t h).alarm_eq ha hin hpre

/-! ### `RDREG` and `STATUS` (R33, R36, R240) -/

/-- A word that matches a row of the opcode table decodes to the command of that row (R101, R102): each
mask holds the whole opcode field. -/
theorem decode_of_row (w : Command) (o : Opcode) (h : w &&& maskWord o = matchWord o) :
    decode w = .ok (operands w o) := by
  have hfield : opField w = opField (w &&& maskWord o) := by
    have hmask : (maskWord o).extractLsb' 32 8 = BitVec.allOnes 8 := by cases o <;> rfl
    rw [opField, opField, BitVec.extractLsb'_and, hmask, BitVec.and_allOnes]
  have hop : opcodeOf (opField w) = some o := by
    rw [hfield, h]
    cases o <;> rfl
  simp only [decode, hop, h, if_true]

/-- The word of format R is the encoder's (R98, R101). -/
theorem encode_rdreg (reg : Nat) (hreg : reg < 64) :
    encode (.rdreg reg) = 0x2000000000#40 ||| BitVec.ofNat 40 reg := by
  have harg : fieldAt 40 0 (argWord (.rdreg reg)) = BitVec.ofNat 40 reg := by
    apply BitVec.eq_of_toNat_eq
    simp only [argWord, fieldAt, BitVec.shiftLeft_zero, BitVec.toNat_setWidth, BitVec.toNat_ofNat]
    omega
  rw [encode, harg]
  rfl

/-- `RDREG` of a register number within its field decodes to itself. -/
theorem decode_rdreg (reg : Nat) (hreg : reg < 64) :
    decode (0x2000000000#40 ||| BitVec.ofNat 40 reg) = .ok (.rdreg reg) := by
  have hrow : decode (encode (.rdreg reg)) = .ok (operands (encode (.rdreg reg)) .rdreg) :=
    decode_of_row _ .rdreg (Laws.EncodesItsRow.rdreg reg)
  have hreg6 : ((0x2000000000#40 ||| BitVec.ofNat 40 reg).extractLsb' 0 6).toNat = reg := by
    have hz : (0x2000000000#40).extractLsb' 0 6 = 0#6 := rfl
    rw [BitVec.extractLsb'_or, hz, BitVec.zero_or]
    simp only [BitVec.extractLsb'_toNat, BitVec.toNat_ofNat, Nat.shiftRight_zero]
    omega
  rw [encode_rdreg reg hreg] at hrow
  rw [hrow, operands, hreg6]

/-- A register that is there is returned, and no state changes (R240). -/
theorem exec_rdreg_of_some {s : State} {reg : Nat} {d : Word}
    (h : s.bus.readReg s.bus.statusWord reg = some d) :
    exec (.rdreg reg) s = .next (reply 0#4 d s) := by
  rw [exec_rdreg, rdregBus, h]
  rfl

/-- A reserved register number is refused (R240). -/
theorem exec_rdreg_of_none {s : State} {reg : Nat} (h : s.bus.readReg s.bus.statusWord reg = none) :
    exec (.rdreg reg) s = .next (reply 9#4 0#32 s) := by
  rw [exec_rdreg, rdregBus, h]
  rfl

/-- The numbers 10 to 31 are reserved (R36). -/
theorem readReg_reserved (b : Bus) (status : Word) (reg : Nat) (h10 : 10 ≤ reg) (h31 : reg ≤ 31) :
    b.readReg status reg = none := by
  have hne : ∀ n, n < 10 → reg ≠ n := by omega
  simp [Bus.readReg, hne, h31]

/-- The numbers from 32 on are the entries of `CB` (R36). -/
theorem readReg_cb (b : Bus) (status : Word) (i : Nat) :
    b.readReg status (32 + i) = some (cbWord (b.cbAt i)) := by
  have hne : ∀ n, n < 10 → 32 + i ≠ n := by omega
  have h31 : ¬ 32 + i ≤ 31 := by omega
  simp [Bus.readReg, hne, h31]

/-- A written entry of `CB` shows its identifier above `0x100` (R36). -/
theorem cbWord_some_toNat (sub : SubId) : (cbWord (some sub)).toNat = 0x100 + sub.toNat := by
  have := sub.isLt
  simp only [cbWord, BitVec.toNat_add, BitVec.toNat_setWidth, BitVec.toNat_ofNat]
  omega

/-- Settles O21, number by number through `readReg`. -/
theorem rdregResult : Obligations.RdregResult := by
  unfold Obligations.RdregResult
  intro s
  refine ⟨decode_rdreg, rfl, exec_rdreg_of_some rfl, exec_rdreg_of_some rfl, exec_rdreg_of_some rfl,
    exec_rdreg_of_some rfl, exec_rdreg_of_some rfl, exec_rdreg_of_some rfl, exec_rdreg_of_some rfl,
    exec_rdreg_of_some rfl, exec_rdreg_of_some rfl, exec_rdreg_of_some rfl, ?_, ?_, ?_⟩
  · intro reg h10 h31
    exact exec_rdreg_of_none (readReg_reserved s.bus _ reg h10 h31)
  · intro i _ hcb
    exact exec_rdreg_of_some (by rw [readReg_cb, hcb, cbWord])
  · intro i sub _ hcb
    exact ⟨cbWord (some sub), exec_rdreg_of_some (by rw [readReg_cb, hcb]), cbWord_some_toNat sub⟩

/-- `CONFIGURED` in the rule's words (R33). -/
theorem configured_iff (b : Bus) :
    b.configured = true ↔ b.clkPin ≠ 0xFF#8 ∧ b.latchPin ≠ 0xFF#8 ∧ b.dataPin ≠ 0xFF#8 := by
  simp only [Bus.configured, Config.pinNotSet, Bool.and_eq_true, bne_iff_ne, and_assoc]

/-- `STATUS`, bit by bit (R33). -/
theorem statusWord_getLsbD (b : Bus) (j : Nat) :
    b.statusWord.getLsbD j = ((decide (j = 0) && b.run) || (decide (j = 1) && b.configured)) := by
  match j with
  | 0 => simp [Bus.statusWord, fieldAt]
  | 1 => simp [Bus.statusWord, fieldAt]
  | k + 2 => simp [Bus.statusWord, fieldAt]

/-- Settles O22, reading the word of `RDREG 7` bit by bit. -/
theorem statusComposite : Obligations.StatusComposite := by
  unfold Obligations.StatusComposite
  intro s
  refine ⟨s.bus.statusWord, exec_rdreg_of_some rfl, ?_, ?_, fun j hj => ?_⟩
  · rw [statusWord_getLsbD]
    simp
  · rw [statusWord_getLsbD, ← configured_iff]
    simp
  · have h0 : j ≠ 0 := by omega
    have h1 : j ≠ 1 := by omega
    rw [statusWord_getLsbD]
    simp [h0, h1]

/-! ### Reset (R47, R300) -/

/-- No pin has a subscriber after reset. -/
theorem reset_cbAt (i : Nat) : State.reset.bus.cbAt i = none := by
  by_cases hi : i < 32
  · simp [Bus.cbAt, State.reset, Bus.reset, hi]
  · simp [Bus.cbAt, State.reset, Bus.reset, hi]

/-- No endpoint is constructed after reset. -/
theorem reset_endpoint (sub : SubId) : State.reset.col.endpoint sub = none := by
  have hlt : sub.toNat < 256 := sub.isLt
  simp [Collab.endpoint, State.reset, Collab.reset, hlt]

/-- Settles O1: each row of the table is the reset state's own field. -/
theorem resetMatchesTable : Obligations.ResetMatchesTable := by
  unfold Obligations.ResetMatchesTable
  exact ⟨rfl, rfl, rfl, rfl, rfl, rfl, rfl, rfl, rfl, rfl, rfl, rfl, fun i _ => reset_cbAt i,
    rfl, rfl, rfl, rfl, rfl, rfl, reset_endpoint, rfl, rfl, rfl, rfl⟩

/-- Settles O2: no endpoint is constructed, and the block passes the check of its invariants. -/
theorem resetMeetsInvariant : Obligations.ResetMeetsInvariant :=
  ⟨busInv_of_check Bus.reset (by decide), collabInv_of_empty Collab.reset rfl⟩

end Sys2Proof.Machine
end

section
/-! PROOF. The data path (20_memory.md): which events a step records, the reconciliation of an equal word,
the bit orders of the serial frame and of the raw word, and handlers between whose actions nothing falls. -/

namespace Sys2Proof.Machine

/-! ### The events a reconciliation owes (R70, R71, R174) -/

/-- Every owed record is for a pin below `HI` that is interested, to the subscriber `CB` names. -/
theorem owedEvents_gated {b : Bus} {nv : Word} {e : Event} (he : e ∈ owedEvents b nv) :
    e.pin < b.hi.toNat ∧ b.interest.getLsbD e.pin = true ∧ b.cbAt e.pin = some e.sub := by
  simp only [owedEvents, owedPins, List.mem_filterMap, List.mem_filter, List.mem_range,
    Bool.and_eq_true, Option.map_eq_some_iff] at he
  obtain ⟨i, ⟨hlt, hint, -⟩, sub, hcb, rfl⟩ := he
  exact ⟨hlt, hint, hcb⟩

/-- The word in `PREV` owes no event: no comparator sees a change. -/
theorem owedEvents_prev (b : Bus) : owedEvents b b.prev = [] := by
  simp [owedEvents, owedPins]

/-! ### The events a step records -/

/-- From `s` to `t` the trace grows by the events one reconciliation of some word owes in `s`; by none where
that word is `PREV`. -/
def AddsOwedEvents (s t : State) : Prop := ∃ nv, t.events = s.events ++ owedEvents s.bus nv

/-- Where no event is recorded, the word in `PREV` stands for the missing reconciliation. -/
theorem AddsOwedEvents.of_eq {s t : State} (h : t.events = s.events) : AddsOwedEvents s t :=
  ⟨s.bus.prev, by rw [owedEvents_prev, List.append_nil, h]⟩

/-- A sampler's delivery, whatever frame is stored before it, records what its sample owes, or nothing when
the sample is not forwarded (R135, R152). -/
theorem addsOwedEvents_of_deliver {slot : Collab → Collab} {sample fb : Word} {s u t : State}
    (hbus : u.bus = s.bus.storeFrame fb) (hev : u.events = s.events)
    (h : deliver slot sample u = .ok t) : AddsOwedEvents s t := by
  obtain ⟨-, rfl⟩ | ⟨-, hr⟩ := deliver_cases slot sample u t h
  · exact .of_eq hev
  · refine ⟨sample, ?_⟩
    rw [reconcile_spec slot sample _ t hr, ← hev, hbus]
    rfl

/-- Of the commands, `RECONCILE` alone records events (R25). -/
theorem Answered.addsOwedEvents {s t : State} {i : Instr} (h : Answered s i t) : AddsOwedEvents s t := by
  cases h with
  | reconcile value u hrun hu =>
    exact ⟨value, by rw [State.respond_events, reconcile_spec preemptSlot value s u hu]⟩
  | _ => exact .of_eq rfl

/-- A step that answers a next state records what one reconciliation owes (R172, R267). -/
theorem step_addsOwedEvents (s t : State) (h : step s = .next t) : AddsOwedEvents s t := by
  cases step_stepped s t h with
  | command w rest i _ hin hd ht => exact ht.addsOwedEvents
  | frame snap pad rest _ hin hen ht =>
    exact addsOwedEvents_of_deliver (fb := rawWord s.bus.wiredBits snap pad)
      (u := (s.withInputs rest).withBus (s.bus.storeFrame _)) rfl rfl ht
  | poll snap rest _ hin hen ht =>
    exact addsOwedEvents_of_deliver (fb := s.bus.fb) (u := s.withInputs rest) rfl rfl ht
  | leBuild sub axis motor dir source rest hin =>
    obtain ⟨-, ht⟩ | ⟨-, -, o, ht⟩ := leConstruct_cases sub axis motor dir source (s.withInputs rest)
    all_goals rw [ht]; exact .of_eq rfl
  | leInit sub rest _ hin ht =>
    obtain ⟨ep, -, ⟨o, rfl⟩ | ⟨-, b, -, rfl⟩⟩ := leInitialize_cases sub _ t ht
    all_goals exact .of_eq rfl
  | leFold sub rest _ hin ht =>
    obtain ⟨ep, -, rfl⟩ := leMakeDualAxisMask_cases sub _ t ht
    exact .of_eq rfl
  | leDrop sub rest _ hin ht =>
    obtain ⟨ep, -, b, -, rfl⟩ := leTeardown_cases sub _ t ht
    exact .of_eq rfl
  | _ => exact .of_eq rfl

/-- Settles O57: the events a step adds are owed by one reconciliation, and owed events pass the gate. -/
theorem everyEventIsGated : Obligations.EveryEventIsGated := by
  unfold Obligations.EveryEventIsGated
  intro s t h
  obtain ⟨nv, hev⟩ := step_addsOwedEvents s t h
  exact ⟨owedEvents s.bus nv, hev, fun e he => owedEvents_gated he⟩

/-! ### Reconciliation of an equal word (R70, R170) -/

/-- With no sampler started, `RECONCILE` answers `OK 0` in the state its reconciliation leaves. -/
theorem exec_reconcile_of_ok {value : Word} {s u : State} (hrun : s.bus.run = false)
    (h : reconcile preemptSlot value s = .ok u) :
    exec (.reconcile value) s = .next (reply 0#4 0#32 u) := by
  simp only [exec, execReconcile, hrun, h]
  rfl

/-- Reconciling the word in `PREV`, which R38 (e) says is `LIW` too, leaves the state as it is (R70). -/
theorem reconcile_prev (slot : Collab → Collab) {s : State} (hI : BusInv s.bus) :
    reconcile slot s.bus.prev s = .ok s := by
  obtain ⟨u, hu⟩ := reconcile_ok slot s.bus.prev s hI.subscribed
  have hus : u = s := by
    have hbus : { s.bus with liw := s.bus.prev } = s.bus := by rw [hI.prevIsLiw]
    rw [reconcile_spec slot s.bus.prev s u hu, owedEvents_prev, List.append_nil]
    exact congrArg s.withBus hbus
  rw [hu, hus]

/-- Settles O28: the reconciliation inside the command leaves the state as it is. -/
theorem equalWordIsNoOperation : Obligations.EqualWordIsNoOperation := by
  unfold Obligations.EqualWordIsNoOperation
  intro s hI hrun
  exact exec_reconcile_of_ok hrun (reconcile_prev preemptSlot hI)

/-! ### The serial frame and the raw word (R63, R65, R106) -/

/-- The assembly of one more bit shifts it in last (R63). -/
theorem assemble_concat (bits : List Bool) (b : Bool) :
    assemble (bits ++ [b]) = shiftInBit (assemble bits) b := by
  simp [assemble]

/-- The assembled word reads the arriving bits from the last one up, in its 32 bits (R63). -/
theorem assemble_getLsbD (bits : List Bool) (j : Nat) :
    (assemble bits).getLsbD j = (decide (j < 32) && bits.reverse.getD j false) := by
  induction bits using List.reverseRecOn generalizing j with
  | nil => simp [assemble]
  | append_singleton bits b ih =>
    rw [assemble_concat, shiftInBit_getLsbD, List.reverse_concat]
    cases j with
    | zero => simp
    | succ k =>
      simp only [Nat.add_one_ne_zero, if_false, Nat.add_sub_cancel, ih, List.getD_cons_succ]
      by_cases hk : k + 1 < 32
      · simp [hk, Nat.lt_of_succ_lt hk]
      · simp [hk]

/-- Settles O30: the list of the arriving bits, reversed, is the word from bit 0 up. -/
theorem serialOrder : Obligations.SerialOrder := by
  unfold Obligations.SerialOrder
  intro bits hlen
  refine ⟨fun k hk => ?_, fun j hj => ?_⟩
  · have hback : bits.length - 1 - (bits.length - 1 - k) = k := by omega
    have hrev : bits.length - 1 - k < bits.reverse.length := by
      rw [List.length_reverse]
      omega
    have h32 : bits.length - 1 - k < 32 := by omega
    simp only [assemble_getLsbD, h32, decide_true, Bool.true_and, List.getD_eq_getElem _ _ hrev,
      List.getElem_reverse, hback]
  · rw [assemble_getLsbD, List.getD_eq_default _ _ (by rwa [List.length_reverse]), Bool.and_false]

/-- Settles O32, reading the raw word bit by bit on either side of the end of the padding. -/
theorem rawWordLayout : Obligations.RawWordLayout := by
  unfold Obligations.RawWordLayout
  intro n snap pad hn
  refine ⟨fun k hk => ?_, fun j hj => ?_⟩
  · have habove : ¬ 31 - k < 32 - n := by omega
    have hindex : 31 - k - (32 - n) = n - 1 - k := by omega
    rw [rawWord_getLsbD n snap pad _ hn (by omega), if_neg habove, hindex, streamBit]
  · rw [rawWord_getLsbD n snap pad j hn (by omega), if_pos hj]

/-! ### Handlers between whose actions nothing falls (R72, R73, R206) -/

/-- Line A2 leaves the environment's remaining choices alone. -/
theorem leWritePos_preempts (ep : Endpoint) (lvl : Bool) (c : Collab) :
    (leWritePos ep lvl c).preempts = c.preempts := by
  unfold leWritePos
  split <;> rfl

/-- Line A3 leaves the environment's remaining choices alone. -/
theorem leWriteNeg_preempts (ep : Endpoint) (lvl : Bool) (c : Collab) :
    (leWriteNeg ep lvl c).preempts = c.preempts := by
  unfold leWriteNeg
  split <;> rfl

/-- Line A1 leaves the environment's remaining choices alone. -/
theorem readLevel_preempts (liw : Word) (source : Source) (c : Collab) :
    (readLevel liw source c).2.preempts = c.preempts := by
  cases source <;> rfl

/-- Lines A2 to A5 with nothing between them: each slot is met after writes that leave the choices empty. -/
theorem leOnLevel_preemptSlot (ep : Endpoint) (lvl : Bool) (c : Collab) (h : c.preempts = []) :
    leOnLevel preemptSlot ep lvl c = leOnLevel id ep lvl c := by
  have hpos : (leWritePos ep lvl c).preempts = [] := (leWritePos_preempts ep lvl c).trans h
  have hneg : (leWriteNeg ep lvl (leWritePos ep lvl c)).preempts = [] :=
    (leWriteNeg_preempts ep lvl _).trans hpos
  simp only [leOnLevel, id, preemptSlot_nil _ h, preemptSlot_nil _ hpos, preemptSlot_nil _ hneg]

/-- The whole edge handler with nothing between its lines. -/
theorem leOnEdge_preemptSlot (liw : Word) (ep : Endpoint) (c : Collab) (h : c.preempts = []) :
    leOnEdge preemptSlot liw ep c = leOnEdge id liw ep c := by
  simp only [leOnEdge, id, preemptSlot_nil c h]
  exact leOnLevel_preemptSlot ep _ _ ((readLevel_preempts liw ep.source c).trans h)

/-- Settles O49, by the three kinds of subscriber: an endpoint, a supplied handler, neither. -/
theorem taskHandlerRefinesInterruptHandler : Obligations.TaskHandlerRefinesInterruptHandler := by
  unfold Obligations.TaskHandlerRefinesInterruptHandler
  intro liw sub pin lvl c h
  unfold runHandler
  split
  · exact leOnEdge_preemptSlot liw _ c h
  · split
    · rw [preemptSlot_nil c h, id]
    · rfl

end Sys2Proof.Machine
end

section
/-! PROOF. Encoding (30_encoding.md): fields of packed words, decoding as the inverse of encoding in both
directions, and how the machine answers a word at the port. -/

namespace Sys2Proof.Machine

/-! ### Fields of packed words -/

/-- A packed field, bit by bit: the bits of `v` from `off` up, zeros elsewhere. -/
theorem fieldAt_getLsbD (w off : Nat) {n : Nat} (v : BitVec n) (j : Nat) :
    (fieldAt w off v).getLsbD j = (decide (j < w ∧ off ≤ j) && v.getLsbD (j - off)) := by
  simp only [fieldAt, BitVec.getLsbD_shiftLeft, BitVec.getLsbD_setWidth]
  by_cases hw : j < w
  · by_cases hoff : off ≤ j
    · have hlt : j - off < w := by omega
      simp [hw, hoff, hlt]
    · simp [hoff, Nat.lt_of_not_le hoff]
  · simp [hw]

/-- A field that fits its word is read back where it stands. -/
theorem extractLsb'_fieldAt_self {w off n : Nat} (v : BitVec n) (h : off + n ≤ w) :
    (fieldAt w off v).extractLsb' off n = v := by
  apply BitVec.eq_of_getLsbD_eq
  intro j hj
  have hw : off + j < w := by omega
  simp only [BitVec.getLsbD_extractLsb', fieldAt_getLsbD, hj, hw, Nat.le_add_right, and_self,
    decide_true, Bool.true_and, Nat.add_sub_cancel_left]

/-- Beside a field a packed word reads 0. -/
theorem extractLsb'_fieldAt_of_disjoint {w off n off' n' : Nat} (v : BitVec n)
    (h : off' + n' ≤ off ∨ off + n ≤ off') : (fieldAt w off v).extractLsb' off' n' = 0#n' := by
  apply BitVec.eq_of_getLsbD_eq
  intro j hj
  rw [BitVec.getLsbD_extractLsb', fieldAt_getLsbD, BitVec.getLsbD_zero]
  obtain hbelow | habove := h
  · have hoff : ¬ off ≤ off' + j := by omega
    simp only [hoff, and_false, decide_false, Bool.false_and, Bool.and_false]
  · rw [BitVec.getLsbD_of_ge v _ (by omega), Bool.and_false, Bool.and_false]

/-- Of two packed fields the one at bit 0 is read back from there. -/
theorem extractLsb'_low_field {w off n m : Nat} (v : BitVec n) (u : BitVec m) (hm : m ≤ off) (h : m ≤ w) :
    (fieldAt w off v ||| fieldAt w 0 u).extractLsb' 0 m = u := by
  rw [BitVec.extractLsb'_or, extractLsb'_fieldAt_of_disjoint v (.inl (by omega)),
    extractLsb'_fieldAt_self u (by omega), BitVec.zero_or]

/-- Of two packed fields the one above is read back from where it stands. -/
theorem extractLsb'_high_field {w off n m : Nat} (v : BitVec n) (u : BitVec m) (hm : m ≤ off)
    (h : off + n ≤ w) : (fieldAt w off v ||| fieldAt w 0 u).extractLsb' off n = v := by
  rw [BitVec.extractLsb'_or, extractLsb'_fieldAt_self v h,
    extractLsb'_fieldAt_of_disjoint u (.inr (by omega)), BitVec.or_zero]

/-- Packing distributes over the fields of the packed word. -/
theorem fieldAt_or (w off : Nat) {n : Nat} (v v' : BitVec n) :
    fieldAt w off (v ||| v') = fieldAt w off v ||| fieldAt w off v' := by
  rw [fieldAt, BitVec.setWidth_or, BitVec.shiftLeft_or_distrib, fieldAt, fieldAt]

/-- Settles O10: both fields of a response are read back, and the codes are listed in order. -/
theorem responseLayout : Obligations.ResponseLayout := by
  unfold Obligations.ResponseLayout
  exact ⟨fun st d => ⟨extractLsb'_high_field _ d (by decide) (by decide),
    extractLsb'_low_field _ d (by decide) (by decide)⟩, by decide⟩

/-! ### The decoder (R101, R102) -/

/-- Each row's opcode field leads stage 1 to that row (R101). -/
theorem opcodeOf_matchWord (o : Opcode) : opcodeOf (opField (matchWord o)) = some o := by
  cases o <;> rfl

/-- Stage 1 finds no row for a value outside the eleven (R103). -/
theorem opcodeOf_eq_none {op : BitVec 8}
    (h : op ∉ [0x01#8, 0x02#8, 0x03#8, 0x04#8, 0x10#8, 0x11#8, 0x12#8, 0x13#8, 0x14#8, 0x15#8, 0x20#8]) :
    opcodeOf op = none := by
  simp only [List.mem_cons, List.not_mem_nil, or_false, not_or] at h
  simp only [opcodeOf, h, if_false]

/-- A word with an opcode outside the eleven is rejected in stage 1. -/
theorem decode_of_unknown {w : Command} (h : opcodeOf (opField w) = none) :
    decode w = .error .illegalOp := by
  simp only [decode, h]

/-- A word of a known opcode with a reserved bit set is rejected in stage 2. -/
theorem decode_of_reserved {w : Command} {o : Opcode} (hop : opField w = opField (matchWord o))
    (h : w &&& maskWord o ≠ matchWord o) : decode w = .error .reservedBits := by
  simp only [decode, hop, opcodeOf_matchWord, h, if_false]

/-- A word that decodes matches a row of the table, and its command is read by that row's format. -/
theorem row_of_decode {w : Command} {i : Instr} (h : decode w = .ok i) :
    ∃ o, w &&& maskWord o = matchWord o ∧ i = operands w o := by
  unfold decode at h
  split at h
  · cases h
  · rename_i o _
    split at h
    · rename_i hrow
      cases h
      exact ⟨o, hrow, rfl⟩
    · cases h

/-- The operands of a word read by the format of a row make a command of that row. -/
theorem operands_opcode (w : Command) (o : Opcode) : (operands w o).opcode = o := by
  cases o <;> rfl

/-- Settles O7, word by word. -/
theorem writtenWordsDecode : Obligations.WrittenWordsDecode := by
  unfold Obligations.WrittenWordsDecode
  exact ⟨rfl, rfl, rfl, rfl, rfl, rfl, rfl⟩

/-! ### Decoding what was encoded (R91 to R102) -/

/-- The word of every command, well-formed or not, matches the row of its opcode. -/
theorem encode_row (i : Instr) : encode i &&& maskWord i.opcode = matchWord i.opcode := by
  cases i with
  | cfgPins clk latch data => exact Laws.EncodesItsRow.cfgPins clk latch data
  | cfgMode shiftIn chips => exact Laws.EncodesItsRow.cfgMode shiftIn chips
  | start => exact Laws.EncodesItsRow.start
  | stop => exact Laws.EncodesItsRow.stop
  | attach sub pin => exact Laws.EncodesItsRow.attach sub pin
  | detach pin => exact Laws.EncodesItsRow.detach pin
  | readValue => exact Laws.EncodesItsRow.readValue
  | reconcile value => exact Laws.EncodesItsRow.reconcile value
  | setPinUsed pin => exact Laws.EncodesItsRow.setPinUsed pin
  | getPinsUsed => exact Laws.EncodesItsRow.getPinsUsed
  | rdreg reg => exact Laws.EncodesItsRow.rdreg reg

/-- A match word holds its opcode and nothing else. -/
theorem matchWord_eq_fieldAt (o : Opcode) : matchWord o = fieldAt 40 32 (opField (matchWord o)) := by
  cases o <;> rfl

/-- A field within `arg[31:0]` of a command's word is that field of its operand word (R91). -/
theorem encode_field (i : Instr) {off n : Nat} (h : off + n ≤ 32) :
    (encode i).extractLsb' off n = (argWord i).extractLsb' off n := by
  have harg : (fieldAt 40 0 (argWord i)).extractLsb' off n = (argWord i).extractLsb' off n := by
    rw [fieldAt, BitVec.shiftLeft_zero, BitVec.extractLsb'_setWidth_of_le (by omega)]
  rw [encode, matchWord_eq_fieldAt, BitVec.extractLsb'_or,
    extractLsb'_fieldAt_of_disjoint _ (.inl h), BitVec.zero_or, harg]

/-- The truth value packed in a one-bit field is the bit there (R97). -/
theorem getLsbD_of_field {w : Command} {j : Nat} {b : Bool} (h : w.extractLsb' j 1 = BitVec.ofBool b) :
    w.getLsbD j = b := by
  rw [BitVec.getLsbD_eq_extractLsb', h]
  cases b <;> rfl

/-- The number in the low field of a command's word, where its operand word packs one that fits (R93, R94,
R97, R98). -/
theorem toNat_low_field_encode {i : Instr} {n k : Nat} (hn : n ≤ 32) (hk : k < 2 ^ n)
    (harg : (argWord i).extractLsb' 0 n = BitVec.ofNat n k) : ((encode i).extractLsb' 0 n).toNat = k := by
  rw [encode_field i (by omega), harg, BitVec.toNat_ofNat, Nat.mod_eq_of_lt hk]

/-- Every operand of a well-formed command is read back from its own field. -/
theorem operands_encode (i : Instr) (hwf : i.wf = true) : operands (encode i) i.opcode = i := by
  cases i with
  | cfgPins clk latch data =>
    simp (disch := omega) only [Instr.opcode, operands, encode_field, argWord, BitVec.extractLsb'_or,
      extractLsb'_fieldAt_self, extractLsb'_fieldAt_of_disjoint, BitVec.or_zero, BitVec.zero_or]
  | cfgMode shiftIn chips =>
    have hshift : (encode (.cfgMode shiftIn chips)).getLsbD 8 = shiftIn :=
      getLsbD_of_field ((encode_field _ (by decide)).trans
        (extractLsb'_high_field _ _ (by decide) (by decide)))
    have hchips : ((encode (.cfgMode shiftIn chips)).extractLsb' 0 3).toNat = chips :=
      toNat_low_field_encode (by decide) (of_decide_eq_true hwf)
        (extractLsb'_low_field _ _ (by decide) (by decide))
    rw [Instr.opcode, operands, hshift, hchips]
  | start => rfl
  | stop => rfl
  | attach sub pin =>
    have hsub : (encode (.attach sub pin)).extractLsb' 8 8 = sub :=
      (encode_field _ (by decide)).trans (extractLsb'_high_field _ _ (by decide) (by decide))
    have hpin : pinField (encode (.attach sub pin)) = pin :=
      toNat_low_field_encode (by decide) (of_decide_eq_true hwf)
        (extractLsb'_low_field _ _ (by decide) (by decide))
    rw [Instr.opcode, operands, hsub, hpin]
  | detach pin =>
    exact congrArg Instr.detach
      (toNat_low_field_encode (by decide) (of_decide_eq_true hwf) (extractLsb'_fieldAt_self _ (by decide)))
  | readValue => rfl
  | reconcile value =>
    exact congrArg Instr.reconcile
      ((encode_field _ (by decide)).trans (extractLsb'_fieldAt_self value (by decide)))
  | setPinUsed pin =>
    exact congrArg Instr.setPinUsed
      (toNat_low_field_encode (by decide) (of_decide_eq_true hwf) (extractLsb'_fieldAt_self _ (by decide)))
  | getPinsUsed => rfl
  | rdreg reg =>
    exact congrArg Instr.rdreg
      (toNat_low_field_encode (by decide) (of_decide_eq_true hwf) (extractLsb'_fieldAt_self _ (by decide)))

/-- Settles O8: the word matches its row, and that row's format reads every operand back. -/
theorem decodeOfEncode : Obligations.DecodeOfEncode := by
  unfold Obligations.DecodeOfEncode
  intro i hwf
  rw [decode_of_row (encode i) i.opcode (encode_row i), operands_encode i hwf]

/-! ### Encoding what was decoded -/

/-- A field of the operands, read and packed again where it stood, is the word's own bits there. -/
theorem fieldAt_extractLsb' (w : Command) {off n : Nat} (h : off + n ≤ 32) :
    fieldAt 40 0 (fieldAt 32 off (w.extractLsb' off n)) = w &&& fieldAt 40 off (BitVec.allOnes n) := by
  apply BitVec.eq_of_getLsbD_eq
  intro j hj
  simp only [fieldAt_getLsbD, BitVec.getLsbD_and, BitVec.getLsbD_extractLsb', BitVec.getLsbD_allOnes]
  by_cases hin : off ≤ j ∧ j - off < n
  · obtain ⟨hoff, hn⟩ := hin
    have h32 : j < 32 := by omega
    simp [hj, h32, hoff, hn]
  · by_cases hoff : off ≤ j
    · have hn : ¬ j - off < n := fun hn => hin ⟨hoff, hn⟩
      simp [hn]
    · simp [hoff]

/-- A number read from a field packs to that field. -/
theorem ofNat_toNat_field (w : Command) (off n : Nat) :
    BitVec.ofNat n (w.extractLsb' off n).toNat = w.extractLsb' off n := by
  rw [BitVec.ofNat_toNat, BitVec.setWidth_eq]

/-- A pin read from its field packs to that field (R93, R94). -/
theorem ofNat_pinField (w : Command) : BitVec.ofNat 5 (pinField w) = w.extractLsb' 0 5 :=
  ofNat_toNat_field w 0 5

/-- A truth value read from a bit packs to that bit (R97). -/
theorem ofBool_getLsbD (w : Command) (j : Nat) : BitVec.ofBool (w.getLsbD j) = w.extractLsb' j 1 := by
  apply BitVec.eq_of_getLsbD_eq
  intro k hk
  obtain rfl : k = 0 := by omega
  simp

/-- The operands read by a row's format, packed again, are the word's bits outside that row's mask: between
them the fields of a format and the reserved bits leave no bit out (R92 to R98, R101). -/
theorem argWord_operands (w : Command) (o : Opcode) :
    fieldAt 40 0 (argWord (operands w o)) = w &&& ~~~maskWord o := by
  cases o with
  | cfgPins =>
    simp only [operands, argWord, fieldAt_or]
    iterate 3 rw [fieldAt_extractLsb' w (by decide)]
    rw [← BitVec.and_or_distrib_left, ← BitVec.and_or_distrib_left]
    rfl
  | cfgMode =>
    rw [operands, argWord, ofBool_getLsbD, ofNat_toNat_field, fieldAt_or, fieldAt_extractLsb' w (by decide),
      fieldAt_extractLsb' w (by decide), ← BitVec.and_or_distrib_left]
    rfl
  | attach =>
    rw [operands, argWord, ofNat_pinField, fieldAt_or, fieldAt_extractLsb' w (by decide),
      fieldAt_extractLsb' w (by decide), ← BitVec.and_or_distrib_left]
    rfl
  | detach => rw [operands, argWord, ofNat_pinField, fieldAt_extractLsb' w (by decide)]; rfl
  | reconcile => rw [operands, argWord, fieldAt_extractLsb' w (by decide)]; rfl
  | setPinUsed => rw [operands, argWord, ofNat_pinField, fieldAt_extractLsb' w (by decide)]; rfl
  | rdreg => rw [operands, argWord, ofNat_toNat_field, fieldAt_extractLsb' w (by decide)]; rfl
  | start => exact BitVec.and_zero.symm
  | stop => exact BitVec.and_zero.symm
  | readValue => exact BitVec.and_zero.symm
  | getPinsUsed => exact BitVec.and_zero.symm

/-- The operands a format reads fit their fields. -/
theorem operands_wf (w : Command) (o : Opcode) : (operands w o).wf = true := by
  have hpin : pinField w < 32 := (w.extractLsb' 0 5).isLt
  cases o with
  | cfgMode => exact decide_eq_true (w.extractLsb' 0 3).isLt
  | attach => exact decide_eq_true hpin
  | detach => exact decide_eq_true hpin
  | setPinUsed => exact decide_eq_true hpin
  | rdreg => exact decide_eq_true (w.extractLsb' 0 6).isLt
  | _ => rfl

/-- A word that matches a row is the word of the command its operands make. -/
theorem encode_operands {w : Command} {o : Opcode} (h : w &&& maskWord o = matchWord o) :
    encode (operands w o) = w := by
  rw [encode, operands_opcode, argWord_operands, ← h, ← BitVec.and_or_distrib_left,
    BitVec.or_not_self, BitVec.and_allOnes]

/-- Settles O9: the word matches a row, and the operands that row's format reads make the word again. -/
theorem encodeOfDecode : Obligations.EncodeOfDecode := by
  unfold Obligations.EncodeOfDecode
  intro w i h
  obtain ⟨o, hrow, rfl⟩ := row_of_decode h
  exact ⟨operands_wf w o, encode_operands hrow⟩

/-! ### Command words at the port (R90, R102) -/

/-- A word that decodes runs its command on the state with the word still at the port. -/
theorem step_of_decoded {s : State} {w : Command} {rest : List Input} {i : Instr}
    (hin : s.inputs = .command w :: rest) (hd : decode w = .ok i) : step s = exec i s := by
  simp only [step, hin, hd]

/-- A word the decoder rejects is answered with the status of its rejection, data 0 and no change of state. -/
theorem step_of_rejected {s : State} {w : Command} {rest : List Input} {e : DecodeError}
    (hin : s.inputs = .command w :: rest) (hd : decode w = .error e) :
    step s = .next (reply (Status.code e.status) 0#32 s) := by
  simp only [step, hin, hd]
  rfl

/-- Settles O4: the word at the port is a decoded one. -/
theorem stepRunsDecodedCommand : Obligations.StepRunsDecodedCommand := by
  unfold Obligations.StepRunsDecodedCommand
  intro s w rest i hin hd
  exact step_of_decoded hin hd

/-- Settles O6: each stage of the decoder has its own answer. -/
theorem rejectedWordsAreAnswered : Obligations.RejectedWordsAreAnswered := by
  unfold Obligations.RejectedWordsAreAnswered
  intro s w rest hin
  refine ⟨fun hop => ?_, fun o hop => ⟨fun hrow => ?_, fun hrow => ?_⟩⟩
  · exact step_of_rejected (e := .illegalOp) hin (decode_of_unknown (opcodeOf_eq_none hop))
  · exact step_of_rejected (e := .reservedBits) hin (decode_of_reserved hop hrow)
  · exact ⟨step_of_decoded hin (decode_of_row w o hrow), operands_opcode w o⟩

/-- A command word as the host numbers its bits is that word. -/
theorem ofNat_toNat_mod (w : Command) : BitVec.ofNat 40 (w.toNat % 2 ^ 40) = w := by
  rw [Nat.mod_eq_of_lt w.isLt, BitVec.ofNat_toNat, BitVec.setWidth_eq]

/-- Settles O5: the offered word is the next input, and it decodes to the command. -/
theorem offeredCommandRuns : Obligations.OfferedCommandRuns := by
  unfold Obligations.OfferedCommandRuns
  intro s i hwf
  have hd : decode (encode i) = .ok i := decodeOfEncode i hwf
  have hoffer : s.withFetchWord 40 (encode i).toNat = offerCommand (encode i) s := by
    rw [State.withFetchWord, ofNat_toNat_mod]
  rw [hoffer]
  refine ⟨?_, step_of_decoded (w := encode i) rfl hd, rfl, rfl⟩
  simp only [decodeTableWord, Nat.le_refl, if_true, ofNat_toNat_mod, hd]

/-! ### Every command completes (R90, R261) -/

/-- A command on the block's registers, accepted or refused, ends in a next state. -/
theorem answer_completes (r : Except Status (Bus × Word)) (s : State) : ∃ t, answer r s = .next t := by
  cases r with
  | ok p => exact ⟨_, rfl⟩
  | error st => exact ⟨_, rfl⟩

/-- Where every interested pin has a subscriber, as R38 (d) says, `RECONCILE` ends in a next state too. -/
theorem exec_reconcile_completes (value : Word) {s : State} (hI : BusInv s.bus) :
    ∃ t, exec (.reconcile value) s = .next t := by
  cases hrun : s.bus.run with
  | true => exact ⟨_, if_pos hrun⟩
  | false =>
    obtain ⟨u, hu⟩ := reconcile_ok preemptSlot value s hI.subscribed
    exact ⟨_, exec_reconcile_of_ok hrun hu⟩

/-- No command stops the machine in a state that meets the block's invariants. -/
theorem exec_completes (i : Instr) {s : State} (hI : BusInv s.bus) : ∃ t, exec i s = .next t := by
  cases i with
  | cfgPins clk latch data => exact exec_cfgPins clk latch data s ▸ answer_completes _ s
  | cfgMode shiftIn chips => exact exec_cfgMode shiftIn chips s ▸ answer_completes _ s
  | start => exact exec_start s ▸ answer_completes _ s
  | stop => exact exec_stop s ▸ answer_completes _ s
  | attach sub pin => exact exec_attach sub pin s ▸ answer_completes _ s
  | detach pin => exact exec_detach pin s ▸ answer_completes _ s
  | readValue => exact exec_readValue s ▸ answer_completes _ s
  | reconcile value => exact exec_reconcile_completes value hI
  | setPinUsed pin => exact exec_setPinUsed pin s ▸ answer_completes _ s
  | getPinsUsed => exact exec_getPinsUsed s ▸ answer_completes _ s
  | rdreg reg => exact exec_rdreg reg s ▸ answer_completes _ s

/-- What the answer to a command always is: one more response, one input fewer, and `FB`, the counters and
the LimitEndpoint outcomes as before (R90). -/
theorem Answered.frame {s t : State} {i : Instr} (h : Answered s i t) :
    ∃ r, t.responses = s.responses ++ [r] ∧ t.inputs = s.inputs.tail ∧ t.bus.fb = s.bus.fb ∧
      t.bus.frames = s.bus.frames ∧ t.bus.changes = s.bus.changes ∧ t.leOutcomes = s.leOutcomes := by
  cases h with
  | reconcile value u hrun hu =>
    obtain ⟨hbus, hresp, hle, hin⟩ := reconcile_frame preemptSlot value s u hu
    exact ⟨responseWord .ok 0#32, by simp [hbus, hresp, hle, hin]⟩
  | _ => exact ⟨_, rfl, rfl, rfl, rfl, rfl, rfl⟩

/-- Settles O23: the command ends in a next state, and every answer has that frame. -/
theorem everyCommandCompletes : Obligations.EveryCommandCompletes := by
  unfold Obligations.EveryCommandCompletes
  intro i s hI
  obtain ⟨t, ht⟩ := exec_completes i hI.bus
  obtain ⟨r, hframe⟩ := (exec_answered i s t ht).frame
  exact ⟨t, r, ht, hframe⟩

end Sys2Proof.Machine
end

section
/-! PROOF. The hardware sampler (40_hardware_sampler.md): the sample inside the raw word, what a delivery does
in a state that meets the invariants, and what `FRAME_DONE` leaves of the environment's choices. -/

namespace Sys2Proof.Machine

/-! ### The sample inside the raw word (R107, R134) -/

/-- Settles O33: the shift moves bit `j` of the sample to where the raw word holds snapshot bit `j`, and
shifts the padding out. -/
theorem sampleIgnoresPadding : Obligations.SampleIgnoresPadding := by
  unfold Obligations.SampleIgnoresPadding
  intro n snap pad hn
  refine BitVec.eq_of_getLsbD_eq fun j _ => ?_
  rw [extractSample, BitVec.getLsbD_ushiftRight, lowBits_getLsbD]
  by_cases hj : j < n
  · have habove : ¬ 32 - n + j < 32 - n := by omega
    rw [rawWord_getLsbD n snap pad _ hn (by omega), if_neg habove, Nat.add_sub_cancel_left]
    simp [hj]
  · rw [BitVec.getLsbD_of_ge _ _ (by omega)]
    simp [hj]

/-! ### Interrupt context uses up none of the environment's choices (R72, R135) -/

/-- Line A5 leaves the environment's remaining choices alone. -/
theorem leRaise_preempts (c : Collab) : (leRaise c).preempts = c.preempts := by
  rw [leRaise_eq]
  split <;> rfl

/-- So does the edge handler when nothing falls between its lines. -/
theorem leOnEdge_id_preempts (liw : Word) (ep : Endpoint) (c : Collab) :
    (leOnEdge id liw ep c).preempts = c.preempts :=
  leOnLevel_keeps (fun d => d.preempts = c.preempts) (fun _ _ h => h) (fun _ _ h => h) id (fun _ h => h)
    (fun d h _ => (leRaise_preempts d).trans h) ep _ _ (readLevel_preempts liw ep.source c)

/-- So does the handler of every subscriber (R175). -/
theorem runHandler_id_preempts (liw : Word) (sub : SubId) (pin : Nat) (lvl : Bool) (c : Collab) :
    (runHandler id liw sub pin lvl c).preempts = c.preempts := by
  unfold runHandler
  split
  · exact leOnEdge_id_preempts liw _ c
  · split
    · exact applyEffect_preempts _ _
    · rfl

/-- So do the handlers of any events. -/
theorem handled_id_preempts (nv : Word) (es : List Event) (c : Collab) :
    (handled id nv es c).preempts = c.preempts :=
  List.foldlRecOn (motive := fun d : Collab => d.preempts = c.preempts) es _ rfl fun d hd e _ =>
    (runHandler_id_preempts nv e.sub e.pin e.lvl d).trans hd

/-- What the handlers of any events leave alone in interrupt context. -/
theorem handled_id_frame (nv : Word) (es : List Event) (c : Collab) :
    (handled id nv es c).preempts = c.preempts ∧ (handled id nv es c).ep = c.ep ∧
    (handled id nv es c).limitMask = c.limitMask ∧ (handled id nv es c).supplied = c.supplied := by
  have hfixed := handled_fixed id (.inl rfl) nv es c
  simp only [Collab.fixed, Prod.mk.injEq] at hfixed
  exact ⟨handled_id_preempts nv es c, hfixed⟩

/-! ### A delivery in a state that meets R38 (R26, R135, R136, R152) -/

/-- A sample equal to `LIW` owes nothing and moves nothing, so both branches of a delivery have one result:
that of its reconciliation, with `CHANGES` alone telling them apart. -/
theorem deliver_spec (slot : Collab → Collab) (sample : Word) {s : State} (hI : BusInv s.bus) :
    deliver slot sample s = .ok { s with
      bus := { s.bus with
        frames := s.bus.frames + 1#32
        changes := if sample = s.bus.liw then s.bus.changes else s.bus.changes + 1#32
        liw := sample, prev := sample }
      col := handled slot sample (owedEvents s.bus sample) s.col
      events := s.events ++ owedEvents s.bus sample } := by
  obtain ⟨t, ht⟩ := deliver_ok slot sample s hI.subscribed
  rw [ht]
  obtain ⟨heq, rfl⟩ | ⟨hne, hr⟩ := deliver_cases slot sample s t ht
  · have hprev : sample = s.bus.prev := heq.trans hI.prevIsLiw.symm
    have howed : owedEvents s.bus sample = [] := hprev ▸ owedEvents_prev s.bus
    have hbus : s.bus.countFrame = (s.bus.countFrame.commit sample).catchUp sample :=
      calc s.bus.countFrame
        _ = (s.bus.countFrame.commit s.bus.liw).catchUp s.bus.prev := rfl
        _ = (s.bus.countFrame.commit sample).catchUp sample := by rw [← heq, ← hprev]
    rw [howed, if_pos heq, List.append_nil]
    exact congrArg (fun b => Except.ok (s.withBus b)) hbus
  · rw [if_neg hne, reconcile_spec slot sample _ t hr]
    rfl

/-! ### `FRAME_DONE` (R135, R136, R266) -/

/-- A frame offered while `FRAME_DONE` is not enabled is dropped. -/
theorem step_frameDone_of_disabled {snap pad : Word} {rest : List Input} {s : State}
    (hin : s.inputs = .agent (.frameDone snap pad) :: rest) (hen : s.bus.frameEnabled = false) :
    step s = .next (s.withInputs rest) := by
  simp [step, hin, agentStep, hen]

/-- An enabled `FRAME_DONE` stores the raw word and delivers the wired bits of the snapshot, in interrupt
context. -/
theorem step_frameDone_of_enabled {snap pad : Word} {rest : List Input} {s : State} (hI : BusInv s.bus)
    (hin : s.inputs = .agent (.frameDone snap pad) :: rest) (hen : s.bus.frameEnabled = true) :
    step s = outcomeOf (deliver id (lowBits s.bus.wiredBits snap)
      ((s.withInputs rest).withBus (s.bus.storeFrame (rawWord s.bus.wiredBits snap pad)))) := by
  rw [← sampleIgnoresPadding s.bus.wiredBits snap pad (wiredBits_le s.bus hI)]
  simp [step, hin, agentStep, hen, frameDone]

/-- Settles O34: the delivery's result from the state with the frame stored, and what handlers in interrupt
context leave alone. -/
theorem frameDoneResult : Obligations.FrameDoneResult := by
  unfold Obligations.FrameDoneResult
  intro snap pad rest s hI hin
  refine ⟨step_frameDone_of_disabled hin, fun hen => ⟨_, _, rfl, rfl, ?_, ?_⟩⟩
  · have hstored : BusInv ((s.withInputs rest).withBus
        (s.bus.storeFrame (rawWord s.bus.wiredBits snap pad))).bus :=
      busInv_unchecked s.bus hI _ s.bus.frames s.bus.pinsUsed
    rw [step_frameDone_of_enabled hI hin hen, deliver_spec id _ hstored]
    rfl
  · exact handled_id_frame _ _ s.col

end Sys2Proof.Machine
end

section
/-! PROOF. The polling sampler (41_polling_sampler.md): the sample its shift-in assembles, what `POLL_CYCLE`
does in a state that meets the invariants, and the simulation of the hardware sampler by the polling one. -/

namespace Sys2Proof.Machine

/-! ### The assembled sample (R64, R151) -/

/-- The last bit to arrive is logical pin 0: from the end, the frame is the snapshot from bit 0 up (R64). -/
theorem stream_reverse_getD (n : Nat) (snap : Word) (j : Nat) :
    (stream n snap).reverse.getD j false = (decide (j < n) && snap.getLsbD j) := by
  by_cases hj : j < n
  · have hback : n - 1 - (n - 1 - j) = j := by omega
    have hlen : j < (stream n snap).reverse.length := by rwa [List.length_reverse, stream_length]
    rw [List.getD_eq_getElem _ _ hlen, List.getElem_reverse]
    simp [stream, streamBit, hback, hj]
  · rw [List.getD_eq_default _ _ (by rw [List.length_reverse, stream_length]; omega)]
    simp [hj]

/-- Settles O31: read from its end, the frame is the snapshot's low bits in place. -/
theorem pollAssemblyIsSnapshot : Obligations.PollAssemblyIsSnapshot := by
  unfold Obligations.PollAssemblyIsSnapshot
  intro n snap _
  refine BitVec.eq_of_getLsbD_eq fun j hj => ?_
  rw [assemble_getLsbD, stream_reverse_getD, lowBits_getLsbD, decide_eq_true hj, Bool.true_and]

/-! ### `POLL_CYCLE` (R136, R152) -/

/-- A cycle offered while `POLL_CYCLE` is not enabled is dropped. -/
theorem step_pollCycle_of_disabled {snap : Word} {rest : List Input} {s : State}
    (hin : s.inputs = .agent (.pollCycle snap) :: rest) (hen : s.bus.pollEnabled = false) :
    step s = .next (s.withInputs rest) := by
  simp [step, hin, agentStep, hen]

/-- An enabled `POLL_CYCLE` delivers the wired bits of the snapshot, in task context. -/
theorem step_pollCycle_of_enabled {snap : Word} {rest : List Input} {s : State} (hI : BusInv s.bus)
    (hin : s.inputs = .agent (.pollCycle snap) :: rest) (hen : s.bus.pollEnabled = true) :
    step s = outcomeOf (deliver preemptSlot (lowBits s.bus.wiredBits snap) (s.withInputs rest)) := by
  rw [← pollAssemblyIsSnapshot s.bus.wiredBits snap (wiredBits_le s.bus hI)]
  simp [step, hin, agentStep, hen, pollCycle]

/-- What the handlers of any events leave alone in task context, whatever falls between their actions. -/
theorem handled_preemptSlot_frame (nv : Word) (es : List Event) (c : Collab) :
    (handled preemptSlot nv es c).ep = c.ep ∧ (handled preemptSlot nv es c).limitMask = c.limitMask ∧
    (handled preemptSlot nv es c).supplied = c.supplied := by
  have hfixed := handled_fixed preemptSlot (.inr rfl) nv es c
  simpa only [Collab.fixed, Prod.mk.injEq] using hfixed

/-- Settles O35: the delivery's result, and what no handler writes. -/
theorem pollCycleResult : Obligations.PollCycleResult := by
  unfold Obligations.PollCycleResult
  intro snap rest s hI hin
  refine ⟨step_pollCycle_of_disabled hin, fun hen => ⟨_, _, rfl, rfl, ?_, ?_⟩⟩
  · have hI' : BusInv (s.withInputs rest).bus := hI
    rw [step_pollCycle_of_enabled hI hin hen, deliver_spec preemptSlot _ hI']
    rfl
  · exact handled_preemptSlot_frame _ _ s.col

/-! ### The block with `USE_SHIFT_IN` set (R34, R154) -/

/-- The block that differs in `USE_SHIFT_IN` alone, now set (R34). -/
def Bus.polling (b : Bus) : Bus := b.setCfgMode (b.cfgMode ||| 0x100#9)

/-- The wired chips are the same. -/
theorem polling_numChips (b : Bus) : b.polling.numChips = b.numChips := by
  simp [Bus.polling, Bus.numChips, BitVec.extractLsb'_or]

/-- The step that is enabled is the other sampler's (R135, R152). -/
theorem polling_pollEnabled {b : Bus} (h : b.frameEnabled = true) : b.polling.pollEnabled = true := by
  have hrun : b.run = true := (Bool.and_eq_true_iff.mp h).1
  simp [Bus.pollEnabled, Bus.useShiftIn, Bus.polling, hrun]

/-- R34 and R38 allow either value of `USE_SHIFT_IN`. -/
theorem busInv_polling {b : Bus} (hI : BusInv b) : BusInv b.polling := by
  refine ⟨?_, ?_, ?_, hI.interestBelow, hI.subscribed, hI.prevIsLiw, hI.pinsLegal, hI.runConfigured⟩
  · rw [polling_numChips]
    exact hI.chips
  · simp [Bus.polling, BitVec.extractLsb'_or, hI.modeReserved]
  · rw [polling_numChips]
    exact hI.hiBound

/-! ### Both samplers in step (R154) -/

/-- Where the environment chooses nothing, the handlers of any events end the same in both contexts. -/
theorem handled_preemptSlot_of_nil (nv : Word) (es : List Event) (c : Collab) (h : c.preempts = []) :
    handled preemptSlot nv es c = handled id nv es c := by
  induction es generalizing c with
  | nil => rfl
  | cons e es ih =>
    have hhead := taskHandlerRefinesInterruptHandler nv e.sub e.pin e.lvl c h
    have hrest := (runHandler_id_preempts nv e.sub e.pin e.lvl c).trans h
    calc handled preemptSlot nv (e :: es) c
      _ = handled preemptSlot nv es (runHandler id nv e.sub e.pin e.lvl c) := by rw [← hhead]; rfl
      _ = handled id nv es (runHandler id nv e.sub e.pin e.lvl c) := ih _ hrest

/-- A run that begins with a completed step goes on from there. -/
theorem run_succ_of_next {s t : State} (n : Nat) (h : step s = .next t) :
    Host.Core.run Sys2Proof.core (n + 1) s = Host.Core.run Sys2Proof.core n t := by
  have hcore : Sys2Proof.core.step s = .next t := h
  simp only [Host.Core.run, hcore]

/-- The simulation relation of R154: `s` is to take `frames` with the hardware sampler and `p` with the
polling one. The blocks differ in `USE_SHIFT_IN` and `FB` alone; the collaborators agree where the
environment's `choices`, which the hardware sampler does not use up, are empty. -/
structure InStep (choices : List (List EnvStep)) (frames : List (Word × Word)) (s p : State) : Prop where
  inv : BusInv s.bus
  enabled : s.bus.frameEnabled = true
  frameInputs : s.inputs = frames.map fun f => Input.agent (.frameDone f.1 f.2)
  pollInputs : p.inputs = frames.map fun f => Input.agent (.pollCycle f.1)
  bus : p.bus = s.bus.polling.storeFrame p.bus.fb
  events : p.events = s.events
  choicesKept : s.col.preempts = choices
  col : choices = [] → p.col = s.col

section
variable {choices : List (List EnvStep)} {frames : List (Word × Word)} {s p : State}

/-- The polling side meets the invariants too. -/
theorem InStep.busInv_poll (h : InStep choices frames s p) : BusInv p.bus := by
  rw [h.bus]
  exact busInv_unchecked s.bus.polling (busInv_polling h.inv) p.bus.fb s.bus.frames s.bus.pinsUsed

/-- Its `POLL_CYCLE` is enabled. -/
theorem InStep.pollEnabled (h : InStep choices frames s p) : p.bus.pollEnabled = true := by
  rw [h.bus]
  exact polling_pollEnabled h.enabled

/-- Both samplers take the same sample of a snapshot. -/
theorem InStep.numChips (h : InStep choices frames s p) : p.bus.numChips = s.bus.numChips := by
  rw [h.bus]
  exact polling_numChips s.bus

/-- A sample owes the same records on both sides. -/
theorem InStep.owedEvents (h : InStep choices frames s p) (nv : Word) :
    owedEvents p.bus nv = owedEvents s.bus nv := by
  rw [h.bus]
  rfl

/-- One frame on both sides keeps the samplers in step. -/
theorem InStep.step {f : Word × Word} (h : InStep choices (f :: frames) s p) :
    ∃ s' p', step s = .next s' ∧ step p = .next p' ∧ InStep choices frames s' p' := by
  obtain ⟨-, hframe⟩ := frameDoneResult f.1 f.2 _ s h.inv h.frameInputs
  obtain ⟨-, hpoll⟩ := pollCycleResult f.1 _ p h.busInv_poll h.pollInputs
  obtain ⟨sample, c, hsample, hc, hs, hpre, -⟩ := hframe h.enabled
  obtain ⟨sample', d, hsample', hd, hp, -⟩ := hpoll h.pollEnabled
  have hsame : sample' = sample := by rw [hsample', hsample, h.numChips]
  subst hsame
  rw [h.owedEvents] at hd hp
  refine ⟨_, _, hs, hp, ?_⟩
  exact
    { inv := busInv_delivered s.bus h.inv _ _ _ _
      enabled := h.enabled
      frameInputs := rfl
      pollInputs := rfl
      bus := by rw [h.bus]; rfl
      events := by rw [h.events]
      choicesKept := hpre.trans h.choicesKept
      col := fun hnil => by
        have hquiet : s.col.preempts = [] := h.choicesKept.trans hnil
        rw [hd, hc, h.col hnil, handled_preemptSlot_of_nil _ _ _ hquiet] }

/-- Both runs over all the frames complete and end in step. -/
theorem InStep.run (h : InStep choices frames s p) :
    ∃ s' p', Host.Core.run Sys2Proof.core frames.length s = .next s' ∧
      Host.Core.run Sys2Proof.core frames.length p = .next p' ∧ InStep choices [] s' p' := by
  induction frames generalizing s p with
  | nil => exact ⟨s, p, rfl, rfl, h⟩
  | cons f frames ih =>
    obtain ⟨s₁, p₁, hs, hp, h₁⟩ := h.step
    obtain ⟨s', p', hs', hp', h'⟩ := ih h₁
    exact ⟨s', p', (run_succ_of_next _ hs).trans hs', (run_succ_of_next _ hp).trans hp', h'⟩

end

/-- Settles O36: the start states are in step, so the states after all frames are, and being in step
fixes what R154 names. -/
theorem samplerEquivalence : Obligations.SamplerEquivalence := by
  unfold Obligations.SamplerEquivalence
  intro frames s p hI hen hp hin
  have hstart : InStep s.col.preempts frames s p := by
    rw [hp]
    exact ⟨hI, hen, hin, rfl, rfl, rfl, rfl, fun _ => rfl⟩
  obtain ⟨s', p', hs, hp', h⟩ := hstart.run
  refine ⟨s', p', hs, hp', h.events, ?_, ?_, ?_, ?_, h.col⟩
  all_goals rw [h.bus]; rfl

end Sys2Proof.Machine
end

section
/-! PROOF. The input bus (42_input_bus.md): the results of its four commands, what a reconciliation owes, the
edges every delivered word makes, and that no step stops in a state that meets the invariants. -/

namespace Sys2Proof.Machine

/-! ### Command words written from their fields (R91, R93 to R95) -/

/-- A field of the operand word stands in the command word where it stood. -/
theorem fieldAt_fieldAt {off n : Nat} (v : BitVec n) (h : off + n ≤ 32) :
    fieldAt 40 0 (fieldAt 32 off v) = fieldAt 40 off v := by
  apply BitVec.eq_of_getLsbD_eq
  intro j hj
  rw [fieldAt_getLsbD, fieldAt_getLsbD, fieldAt_getLsbD, Nat.sub_zero]
  by_cases h32 : j < 32
  · simp [hj, h32]
  · rw [BitVec.getLsbD_of_ge v (j - off) (by omega)]
    simp only [Bool.and_false]

/-- A number that fits its field at bit 0 is the number in the whole word. -/
theorem fieldAt_zero_ofNat (w : Nat) {n k : Nat} (hk : k < 2 ^ n) :
    fieldAt w 0 (BitVec.ofNat n k) = BitVec.ofNat w k := by
  apply BitVec.eq_of_toNat_eq
  rw [fieldAt, BitVec.shiftLeft_zero, BitVec.toNat_setWidth, BitVec.toNat_ofNat, BitVec.toNat_ofNat,
    Nat.mod_eq_of_lt hk]

/-- The word of format A is the encoder's (R94, R101). -/
theorem encode_attach (sub : SubId) {pin : Nat} (hpin : pin < 32) :
    encode (.attach sub pin) =
      0x1000000000#40 ||| sub.setWidth 40 <<< 8 ||| BitVec.ofNat 40 pin := by
  rw [encode, argWord, fieldAt_or, fieldAt_fieldAt sub (by decide), fieldAt_fieldAt _ (by decide),
    fieldAt_zero_ofNat 40 hpin, ← BitVec.or_assoc]
  rfl

/-- The word of format P is the encoder's (R93, R101). -/
theorem encode_detach {pin : Nat} (hpin : pin < 32) :
    encode (.detach pin) = 0x1100000000#40 ||| BitVec.ofNat 40 pin := by
  rw [encode, argWord, fieldAt_fieldAt _ (by decide), fieldAt_zero_ofNat 40 hpin]
  rfl

/-- The word of format W is the encoder's (R95, R101). -/
theorem encode_reconcile (value : Word) :
    encode (.reconcile value) = 0x1300000000#40 ||| value.setWidth 40 := by
  rw [encode, argWord, fieldAt_fieldAt _ (by decide), fieldAt, BitVec.shiftLeft_zero]
  rfl

/-! ### `ATTACH`, `DETACH`, `READ_VALUE` (R166, R168, R169) -/

/-- `ATTACH` of a pin that is not wired is refused. -/
theorem exec_attach_of_unwired {sub : SubId} {pin : Nat} {s : State} (h : s.bus.wiredBits ≤ pin) :
    exec (.attach sub pin) s = .next (reply 7#4 0#32 s) := by
  rw [exec_attach, attachBus, if_pos h]
  rfl

/-- `ATTACH` of a wired pin makes the writes of `subscribe` and answers `OK 0`. -/
theorem exec_attach_of_wired {sub : SubId} {pin : Nat} {s : State} (h : pin < s.bus.wiredBits) :
    exec (.attach sub pin) s = .next (reply 0#4 0#32 (s.withBus (s.bus.subscribe sub pin))) := by
  rw [exec_attach, attachBus, if_neg (Nat.not_le_of_lt h)]
  rfl

/-- Settles O15: the two sides of the range check, and the three writes of `subscribe` entry by entry and
bit by bit. -/
theorem attachResult : Obligations.AttachResult := by
  unfold Obligations.AttachResult
  intro sub pin s hpin
  refine ⟨?_, exec_attach_of_unwired, fun hwired =>
    ⟨_, exec_attach_of_wired hwired, ?_, ?_, ?_, ?_, rfl⟩⟩
  · rw [← encode_attach sub hpin]
    exact decodeOfEncode _ (decide_eq_true hpin)
  · rw [reply_bus, State.withBus_bus, cbAt_subscribe, if_pos ⟨rfl, hpin⟩]
  · intro j hj
    rw [reply_bus, State.withBus_bus, cbAt_subscribe, if_neg fun h => hj h.1.symm]
  · exact raisedHi_toNat s.bus.hi pin (by omega)
  · intro j
    rw [reply_bus, State.withBus_bus, Bus.subscribe_interest, setBit_getLsbD _ _ _ hpin]
    simp only [eq_comm]

/-- Settles O16: the one write of `unsubscribe`, bit by bit. -/
theorem detachResult : Obligations.DetachResult := by
  unfold Obligations.DetachResult
  intro pin s hpin
  refine ⟨?_, reply 0#4 0#32 (s.withBus (s.bus.unsubscribe pin)), rfl, fun j => ?_, rfl⟩
  · rw [← encode_detach hpin]
    exact decodeOfEncode _ (decide_eq_true hpin)
  · rw [reply_bus, State.withBus_bus, Bus.unsubscribe_interest, clearBit_getLsbD]
    simp only [ne_comm]

/-- Settles O17: the answer carries `LIW` and writes the registers as they were. -/
theorem readValueResult : Obligations.ReadValueResult := by
  unfold Obligations.ReadValueResult
  exact fun s => ⟨rfl, exec_readValue s⟩

/-! ### The handler of a subscriber (R175) -/

/-- Settles O48: the first and the last branch of the handler map. -/
theorem handlerMapIsTotal : Obligations.HandlerMapIsTotal := by
  unfold Obligations.HandlerMapIsTotal
  intro slot liw sub pin lvl c
  refine ⟨fun ep hep => ?_, fun hep hsup => ?_⟩
  · simp only [runHandler, hep]
  · have hnot : c.supplied.contains sub = false := by simpa using hsup
    simp only [runHandler, hep, hnot]
    rfl

/-! ### `RECONCILE` (R170, R172) -/

/-- While a sampler is started `RECONCILE` is refused. -/
theorem exec_reconcile_of_running {value : Word} {s : State} (h : s.bus.run = true) :
    exec (.reconcile value) s = .next (reply 5#4 0#32 s) :=
  if_pos h

/-- The whole result of an accepted `RECONCILE` in a state that meets R38. -/
theorem exec_reconcile_of_stopped (value : Word) {s : State} (hrun : s.bus.run = false)
    (hI : BusInv s.bus) :
    exec (.reconcile value) s = .next (reply 0#4 0#32 { s with
      bus := { s.bus with liw := value, prev := value }
      col := handled preemptSlot value (owedEvents s.bus value) s.col
      events := s.events ++ owedEvents s.bus value }) := by
  obtain ⟨u, hu⟩ := reconcile_ok preemptSlot value s hI.subscribed
  rw [exec_reconcile_of_ok hrun hu, reconcile_spec preemptSlot value s u hu]

/-- Settles O18: the refusal, the result of the reconciliation, and what no handler writes. -/
theorem reconcileResult : Obligations.ReconcileResult := by
  unfold Obligations.ReconcileResult
  intro value s
  refine ⟨?_, exec_reconcile_of_running, fun hrun hI => ⟨_, rfl, exec_reconcile_of_stopped value hrun hI,
    handled_preemptSlot_frame value _ s.col⟩⟩
  rw [← encode_reconcile]
  exact decodeOfEncode _ rfl

/-! ### The pins and the records a reconciliation owes (R174, R177) -/

/-- A pin is owed exactly when it is below `HI`, interested and changed. -/
theorem mem_owedPins {b : Bus} {nv : Word} {i : Nat} :
    i ∈ owedPins b nv ↔
      i < b.hi.toNat ∧ b.interest.getLsbD i = true ∧ b.prev.getLsbD i ≠ nv.getLsbD i := by
  simp only [owedPins, List.mem_filter, List.mem_range, Bool.and_eq_true, bne_iff_ne]

/-- The owed pins ascend. -/
theorem owedPins_ascending (b : Bus) (nv : Word) : (owedPins b nv).Pairwise (· < ·) :=
  List.pairwise_lt_range.filter _

/-- No pin is owed twice. -/
theorem owedPins_nodup (b : Bus) (nv : Word) : (owedPins b nv).Nodup :=
  List.nodup_range.filter _

/-- An owed record carries its pin's new level. -/
theorem owedEvents_lvl {b : Bus} {nv : Word} {e : Event} (he : e ∈ owedEvents b nv) :
    e.lvl = nv.getLsbD e.pin := by
  simp only [owedEvents, List.mem_filterMap, Option.map_eq_some_iff] at he
  obtain ⟨i, -, sub, -, rfl⟩ := he
  rfl

/-- Every owed pin gets one record: R38 (d) says it has a subscriber. -/
theorem owedEvents_map_pin {b : Bus} (hI : BusInv b) (nv : Word) :
    (owedEvents b nv).map Event.pin = owedPins b nv := by
  have hpin : ∀ i ∈ owedPins b nv,
      ((b.cbAt i).map fun sub => (⟨sub, i, nv.getLsbD i⟩ : Event)).map Event.pin = some i := by
    intro i hi
    obtain ⟨-, hint, -⟩ := mem_owedPins.mp hi
    obtain ⟨sub, hcb⟩ := hI.subscribed i hint
    rw [hcb]
    rfl
  rw [owedEvents, List.map_filterMap, List.filterMap_congr hpin, List.filterMap_some]

/-- Settles O26: the new events are the owed ones. -/
theorem dispatchSetAndOrder : Obligations.DispatchSetAndOrder := by
  unfold Obligations.DispatchSetAndOrder
  intro value s t hrun hI h
  rw [exec_reconcile_of_stopped value hrun hI] at h
  cases h
  refine ⟨owedEvents s.bus value, rfl, ?_, ?_, fun e he => ?_⟩
  · intro i
    rw [owedEvents_map_pin hI]
    exact mem_owedPins
  · rw [owedEvents_map_pin hI]
    exact owedPins_ascending s.bus value
  · obtain ⟨-, -, hcb⟩ := owedEvents_gated he
    exact ⟨hcb, owedEvents_lvl he⟩

/-- Settles O27: an owed pin is below `HI`, and R38 (b) bounds `HI`. -/
theorem boundedScan : Obligations.BoundedScan := by
  unfold Obligations.BoundedScan
  intro value s t hrun hI h
  rw [exec_reconcile_of_stopped value hrun hI] at h
  cases h
  refine ⟨⟨owedEvents s.bus value, rfl, fun e he => ?_⟩, rfl, rfl⟩
  obtain ⟨hlt, -, -⟩ := owedEvents_gated he
  exact ⟨hlt, Nat.lt_of_lt_of_le hlt hI.hiBound⟩

/-! ### One pin's records (R176) -/

/-- The records of a later part of the trace follow those of the earlier part. -/
theorem eventsFor_append (i : Nat) (es es' : List Event) :
    eventsFor i (es ++ es') = eventsFor i es ++ eventsFor i es' :=
  List.filter_append es es'

/-- One pin's owed records are those of that pin alone. -/
theorem eventsFor_owedEvents (b : Bus) (nv : Word) (i : Nat) :
    eventsFor i (owedEvents b nv) =
      if i ∈ owedPins b nv then ((b.cbAt i).map fun sub => ⟨sub, i, nv.getLsbD i⟩).toList else [] := by
  have hswap : eventsFor i (owedEvents b nv) =
      ((owedPins b nv).filter (· == i)).filterMap fun k =>
        (b.cbAt k).map fun sub => ⟨sub, k, nv.getLsbD k⟩ := by
    rw [eventsFor, owedEvents, List.filter_filterMap, List.filterMap_filter]
    refine List.filterMap_congr fun k _ => ?_
    cases b.cbAt k with
    | none => simp
    | some sub => by_cases hk : k = i <;> simp [hk]
  rw [hswap, List.filter_beq, (owedPins_nodup b nv).count]
  split
  · cases hcb : b.cbAt i <;> simp [hcb]
  · rfl

/-- An interested pin's records are one per flip of its bit, to its subscriber (R38 (c), R174). -/
theorem eventsFor_owedEvents_of_interested {b : Bus} (hI : BusInv b) {i : Nat} {sub : SubId}
    (hint : b.interest.getLsbD i = true) (hcb : b.cbAt i = some sub) (nv : Word) :
    eventsFor i (owedEvents b nv) = flipEvents i sub b.prev [nv] := by
  have howed : i ∈ owedPins b nv ↔ b.prev.getLsbD i ≠ nv.getLsbD i := by
    simp only [mem_owedPins, hI.interestBelow i hint, hint, true_and]
  rw [eventsFor_owedEvents, hcb]
  by_cases hflip : b.prev.getLsbD i = nv.getLsbD i <;> simp [howed, flipEvents, hflip]

/-- A pin that is not interested has no records. -/
theorem eventsFor_owedEvents_of_not_interested {b : Bus} {i : Nat} (hint : b.interest.getLsbD i = false)
    (nv : Word) : eventsFor i (owedEvents b nv) = [] := by
  have hnot : i ∉ owedPins b nv := fun hi => by
    obtain ⟨-, h, -⟩ := mem_owedPins.mp hi
    rw [hint] at h
    cases h
  rw [eventsFor_owedEvents, if_neg hnot]

/-- The flips along a sequence are those of its first word and then those of the rest. -/
theorem flipEvents_cons (i : Nat) (sub : SubId) (prev w : Word) (ws : List Word) :
    flipEvents i sub prev (w :: ws) = flipEvents i sub prev [w] ++ flipEvents i sub w ws := by
  simp only [flipEvents]
  split
  · rfl
  · rfl

/-! ### Deliveries by the active producer (R26, R171, R176) -/

/-- What every producer's delivery of the word `w` has in common: the word arrives, its owed records are
added, and of the block `FB` and the counters alone may differ besides. -/
structure Delivered (w : Word) (s t : State) : Prop where
  bus : ∃ fb frames changes,
    t.bus = { s.bus with liw := w, prev := w, fb := fb, frames := frames, changes := changes }
  events : t.events = s.events ++ owedEvents s.bus w
  inputs : t.inputs = s.inputs.tail

/-- The active producer's input, whichever of the three it is, completes and delivers its word. -/
theorem step_producerInput {v pad : Word} {rest : List Input} {s : State} (hI : BusInv s.bus)
    (hin : s.inputs = producerInput s.bus v pad :: rest) :
    ∃ t, step s = .next t ∧ Delivered (deliveredWord s.bus v) s t := by
  cases hrun : s.bus.run with
  | false =>
    have hword : deliveredWord s.bus v = v := by simp [deliveredWord, hrun]
    have hcmd : s.inputs = .command (encode (.reconcile v)) :: rest := by
      simpa [producerInput, hrun] using hin
    have hstep := step_of_decoded hcmd (decodeOfEncode _ rfl)
    rw [exec_reconcile_of_stopped v hrun hI] at hstep
    rw [hword]
    exact ⟨_, hstep, ⟨_, _, _, rfl⟩, rfl, rfl⟩
  | true =>
    have hword : deliveredWord s.bus v = lowBits (8 * s.bus.numChips) v := by simp [deliveredWord, hrun]
    rw [hword]
    cases hshift : s.bus.useShiftIn with
    | false =>
      have hframe : s.inputs = .agent (.frameDone v pad) :: rest := by
        simpa [producerInput, hrun, hshift] using hin
      obtain ⟨-, hres⟩ := frameDoneResult v pad rest s hI hframe
      obtain ⟨_, c, rfl, -, hstep, -⟩ := hres (by simp [Bus.frameEnabled, hrun, hshift])
      exact ⟨_, hstep, ⟨_, _, _, rfl⟩, rfl, by rw [hframe]; rfl⟩
    | true =>
      have hpoll : s.inputs = .agent (.pollCycle v) :: rest := by
        simpa [producerInput, hrun, hshift] using hin
      obtain ⟨-, hres⟩ := pollCycleResult v rest s hI hpoll
      obtain ⟨_, c, rfl, -, hstep, -⟩ := hres (by simp [Bus.pollEnabled, hrun, hshift])
      exact ⟨_, hstep, ⟨_, _, _, rfl⟩, rfl, by rw [hpoll]; rfl⟩

/-- From `s` to `t`, over which the words `ws` were delivered, pin `i` gained what R176 says. -/
def FlipsRecorded (i : Nat) (ws : List Word) (s t : State) : Prop :=
  (∀ sub, s.bus.interest.getLsbD i = true → s.bus.cbAt i = some sub →
    eventsFor i t.events = eventsFor i s.events ++ flipEvents i sub s.bus.prev ws) ∧
  (s.bus.interest.getLsbD i = false → eventsFor i t.events = eventsFor i s.events)

/-- With no word delivered nothing is recorded. -/
theorem FlipsRecorded.refl (i : Nat) (s : State) : FlipsRecorded i [] s s :=
  ⟨fun _ _ _ => (List.append_nil _).symm, fun _ => rfl⟩

/-- One delivery before the others: it keeps the subscriptions and leaves its word in `PREV`. -/
theorem FlipsRecorded.cons {i : Nat} {w : Word} {ws : List Word} {s u t : State} (hI : BusInv s.bus)
    (hd : Delivered w s u) (h : FlipsRecorded i ws u t) : FlipsRecorded i (w :: ws) s t := by
  obtain ⟨⟨fb, frames, changes, hbus⟩, hev, -⟩ := hd
  obtain ⟨hflips, hquiet⟩ := h
  rw [hbus] at hflips hquiet
  refine ⟨fun sub hint hcb => ?_, fun hint => ?_⟩
  · rw [hflips sub hint hcb, hev, eventsFor_append, eventsFor_owedEvents_of_interested hI hint hcb,
      List.append_assoc, ← flipEvents_cons]
  · rw [hquiet hint, hev, eventsFor_append, eventsFor_owedEvents_of_not_interested hint, List.append_nil]

/-- Every run of the active producer completes, and each pin gains its flips. -/
theorem run_producerInputs (i : Nat) (vs : List (Word × Word)) (s : State) (hI : BusInv s.bus)
    (hin : s.inputs = vs.map fun v => producerInput s.bus v.1 v.2) :
    ∃ t, Host.Core.run Sys2Proof.core vs.length s = .next t ∧
      FlipsRecorded i (vs.map fun v => deliveredWord s.bus v.1) s t := by
  induction vs generalizing s with
  | nil => exact ⟨s, rfl, .refl i s⟩
  | cons v vs ih =>
    obtain ⟨u, hstep, hd⟩ := step_producerInput hI hin
    obtain ⟨fb, frames, changes, hbus⟩ := hd.bus
    have hIu : BusInv u.bus := hbus ▸ busInv_delivered s.bus hI _ fb frames changes
    have hinput : producerInput u.bus = producerInput s.bus := by rw [hbus]; rfl
    have hword : deliveredWord u.bus = deliveredWord s.bus := by rw [hbus]; rfl
    obtain ⟨t, hrun, hflips⟩ := ih u hIu (by rw [hd.inputs, hin, hinput]; rfl)
    rw [hword] at hflips
    exact ⟨t, (run_succ_of_next _ hstep).trans hrun, hflips.cons hI hd⟩

/-- Settles O29, by induction on the delivered words. -/
theorem edgeDetectionCorrect : Obligations.EdgeDetectionCorrect := by
  unfold Obligations.EdgeDetectionCorrect
  intro vs s i hI hin
  exact run_producerInputs i vs s hI hin

/-! ### No step stops but on an endpoint that does not exist (R172, R38) -/

/-- The step of another agent is taken on the state without it (R17). -/
theorem step_of_agent {a : AgentStep} {rest : List Input} {s : State} (hin : s.inputs = .agent a :: rest) :
    step s = agentStep a (s.withInputs rest) := by
  simp only [step, hin]

/-- A frame offered to the hardware sampler completes whether its step is enabled or not. -/
theorem step_frameDone_completes {snap pad : Word} {rest : List Input} {s : State} (hI : BusInv s.bus)
    (hin : s.inputs = .agent (.frameDone snap pad) :: rest) : ∃ t, step s = .next t := by
  obtain ⟨hoff, hon⟩ := frameDoneResult snap pad rest s hI hin
  cases hen : s.bus.frameEnabled with
  | false => exact ⟨_, hoff hen⟩
  | true =>
    obtain ⟨_, _, -, -, hstep, -⟩ := hon hen
    exact ⟨_, hstep⟩

/-- So does a cycle offered to the polling sampler. -/
theorem step_pollCycle_completes {snap : Word} {rest : List Input} {s : State} (hI : BusInv s.bus)
    (hin : s.inputs = .agent (.pollCycle snap) :: rest) : ∃ t, step s = .next t := by
  obtain ⟨hoff, hon⟩ := pollCycleResult snap rest s hI hin
  cases hen : s.bus.pollEnabled with
  | false => exact ⟨_, hoff hen⟩
  | true =>
    obtain ⟨_, _, -, -, hstep, -⟩ := hon hen
    exact ⟨_, hstep⟩

/-- A word at the port is answered, whether it decodes or not. -/
theorem step_command_completes {w : Command} {rest : List Input} {s : State} (hI : BusInv s.bus)
    (hin : s.inputs = .command w :: rest) : ∃ t, step s = .next t := by
  cases hd : decode w with
  | error e => exact ⟨_, step_of_rejected hin hd⟩
  | ok i => exact step_of_decoded hin hd ▸ exec_completes i hI

/-- `op` is an operation of the endpoint constructed under `sub`: it completes where there is one, and faults
where there is none (R44, R47). -/
def NeedsEndpoint (sub : SubId) (op : State → Except Fault State) : Prop :=
  ∀ s, (s.col.endpoint sub = none ∧ op s = .error .noEndpoint) ∨ ∃ t, op s = .ok t

/-- `LE_INITIALIZE` of a constructed endpoint completes, its `ATTACH` refused or not (R204). -/
theorem leInitialize_needsEndpoint (sub : SubId) : NeedsEndpoint sub (leInitialize sub) := by
  intro s
  cases hep : s.col.endpoint sub with
  | none => exact .inl ⟨rfl, by simp only [leInitialize, hep]⟩
  | some ep =>
    refine .inr ?_
    simp only [leInitialize, hep]
    split
    · split
      · exact ⟨_, rfl⟩
      · exact ⟨_, rfl⟩
    · exact ⟨_, rfl⟩

/-- `LE_MAKE_DUAL_AXIS_MASK` of a constructed endpoint completes (R208). -/
theorem leMakeDualAxisMask_needsEndpoint (sub : SubId) : NeedsEndpoint sub (leMakeDualAxisMask sub) := by
  intro s
  cases hep : s.col.endpoint sub with
  | none => exact .inl ⟨rfl, by simp only [leMakeDualAxisMask, hep]⟩
  | some ep => exact .inr ⟨_, by simp only [leMakeDualAxisMask, hep]; rfl⟩

/-- `LE_TEARDOWN` of a constructed endpoint completes (R209). -/
theorem leTeardown_needsEndpoint (sub : SubId) : NeedsEndpoint sub (leTeardown sub) := by
  intro s
  cases hep : s.col.endpoint sub with
  | none => exact .inl ⟨rfl, by simp only [leTeardown, hep]⟩
  | some ep => exact .inr ⟨_, by simp only [leTeardown, hep]; rfl⟩

/-- A step that is such an operation answers a next state, or ends in its one fault. -/
theorem step_of_needsEndpoint {sub : SubId} {op : State → Except Fault State} {rest : List Input}
    {s : State} (hop : NeedsEndpoint sub op) (hstep : step s = outcomeOf (op (s.withInputs rest))) :
    (∃ t, step s = .next t) ∨ (step s = .fault .noEndpoint ∧ s.col.endpoint sub = none) := by
  obtain ⟨hnone, hfault⟩ | ⟨t, ht⟩ := hop (s.withInputs rest)
  · exact .inr ⟨by rw [hstep, hfault]; rfl, hnone⟩
  · exact .inl ⟨t, by rw [hstep, ht]; rfl⟩

/-- Settles O52: commands and deliveries complete under R38, and of the other agents' steps those that need
an endpoint alone can stop. -/
theorem invariantStatesNeverStop : Obligations.InvariantStatesNeverStop := by
  unfold Obligations.InvariantStatesNeverStop
  intro s hI
  match hin : s.inputs with
  | [] => exact .inl ⟨s, by simp only [step, hin]⟩
  | .command w :: rest => exact .inl (step_command_completes hI.bus hin)
  | .agent a :: rest =>
    have hstep := step_of_agent hin
    cases a with
    | frameDone snap pad => exact .inl (step_frameDone_completes hI.bus hin)
    | pollCycle snap => exact .inl (step_pollCycle_completes hI.bus hin)
    | leConstruct sub axis motor dir source => exact .inl ⟨_, hstep⟩
    | leInitialize sub =>
      refine (step_of_needsEndpoint (leInitialize_needsEndpoint sub) hstep).imp_right ?_
      exact fun ⟨hfault, hnone⟩ => ⟨hfault, sub, rest, hnone, .inl rfl⟩
    | leMakeDualAxisMask sub =>
      refine (step_of_needsEndpoint (leMakeDualAxisMask_needsEndpoint sub) hstep).imp_right ?_
      exact fun ⟨hfault, hnone⟩ => ⟨hfault, sub, rest, hnone, .inr (.inl rfl)⟩
    | leTeardown sub =>
      refine (step_of_needsEndpoint (leTeardown_needsEndpoint sub) hstep).imp_right ?_
      exact fun ⟨hfault, hnone⟩ => ⟨hfault, sub, rest, hnone, .inr (.inr rfl)⟩
    | env e => exact .inl ⟨_, hstep⟩

end Sys2Proof.Machine
end

section
/-! PROOF. The reference subscriber LimitEndpoint (43_limit_endpoint.md): the results of its four operations,
the edge handler as one write of masks and alarm, the native pins, and what holds between the handler's
actions in either context. -/

namespace Sys2Proof.Machine

/-! ### Endpoint records (R44, R109, R208) -/

/-- The record just written under an identifier is the one found there. -/
theorem endpoint_setEndpoint_same (c : Collab) (sub : SubId) (ep : Endpoint) :
    (c.setEndpoint sub ep).endpoint sub = some ep := by
  rw [endpoint_setEndpoint, if_pos rfl]

/-- Every other record stays as it was. -/
theorem endpoint_setEndpoint_other (c : Collab) {sub j : SubId} (ep : Endpoint) (h : j ≠ sub) :
    (c.setEndpoint sub ep).endpoint j = c.endpoint j := by
  rw [endpoint_setEndpoint, if_neg h.symm]

/-- The aggregate mask of an axis and a motor is their one bit (R109). -/
theorem aggMask_getLsbD {axis motor : Nat} (haxis : axis < 16) (hmotor : motor ≤ 1) (j : Nat) :
    (aggMask axis motor).getLsbD j = decide (j = axis + 16 * motor) := by
  have hlt : axis + 16 * motor < 32 := by omega
  simp only [aggMask, aggPosition, BitVec.getLsbD_twoPow, hlt, decide_true, Bool.true_and, eq_comm]

/-- The folded mask of an axis has the bits of both its motors (R208). -/
theorem dualAxisMask_getLsbD {axis : Nat} (haxis : axis < 16) (j : Nat) :
    (dualAxisMask axis).getLsbD j = (decide (j = axis) || decide (j = axis + 16)) := by
  have hlow : axis < 32 := by omega
  have hhigh : axis + 16 < 32 := by omega
  simp only [dualAxisMask, BitVec.getLsbD_or, BitVec.getLsbD_twoPow, hlow, hhigh, decide_true,
    Bool.true_and, eq_comm]

/-- A direction code is valid exactly when it is 0, 1 or 2 (R108, R202). -/
theorem directionValid_directionOf (dir : Nat) :
    directionValid (directionOf dir) = decide (dir ≤ 2) := by
  match dir with
  | 0 | 1 | 2 => rfl
  | k + 3 => rfl

/-- A code above 2 is kept as the invalid code it is (R203). -/
theorem directionOf_of_invalid {dir : Nat} (h : 2 < dir) : directionOf dir = .invalid dir := by
  match dir, h with
  | k + 3, _ => rfl

/-- The step of an agent whose operation completes ends where the operation does (R17). -/
theorem step_of_completed {a : AgentStep} {r : Except Fault State} {rest : List Input} {s t : State}
    (hin : s.inputs = .agent a :: rest) (ha : agentStep a (s.withInputs rest) = outcomeOf r) (hr : r = .ok t) :
    step s = .next t := by
  rw [step_of_agent hin, ha, hr, outcomeOf]

/-! ### `LE_CONSTRUCT` (R202, R203) -/

/-- Out of range nothing is constructed. -/
theorem leConstruct_of_outOfRange {sub : SubId} {axis motor dir : Nat} {source : Source} {s : State}
    (h : Config.maxAxes ≤ axis ∨ 1 < motor) :
    leConstruct sub axis motor dir source s = s.recordLe .errRange :=
  if_pos h

/-- In range the new record is written, whatever the direction code; an invalid one is reported. -/
theorem leConstruct_of_inRange {sub : SubId} {axis motor dir : Nat} {source : Source} {s : State}
    (haxis : axis < Config.maxAxes) (hmotor : motor ≤ 1) :
    leConstruct sub axis motor dir source s =
      (s.withCol (s.col.setEndpoint sub (newEndpoint axis motor dir source))).recordLe
        (if dir ≤ 2 then .ok else .errDirection) := by
  rw [leConstruct, if_neg (by omega), directionValid_directionOf]
  simp only [decide_eq_true_eq]

/-- Settles O37: the two sides of the range check, and the new record field by field. -/
theorem constructResult : Obligations.ConstructResult := by
  unfold Obligations.ConstructResult
  intro sub axis motor dir source rest s hin
  refine ⟨fun hrange => ?_, fun haxis hmotor => ?_⟩
  · rw [step_of_agent hin, agentStep, leConstruct_of_outOfRange hrange]
    rfl
  · have haxis16 : axis < 16 := lt_of_lt_of_le haxis maxAxes_bounds.2
    have hpart : (newEndpoint axis motor dir source).participates = true ↔ dir ≤ 2 := by
      rw [newEndpoint, directionValid_directionOf, decide_eq_true_iff]
    refine ⟨_, newEndpoint axis motor dir source,
      by rw [step_of_agent hin, agentStep, leConstruct_of_inRange haxis hmotor],
      endpoint_setEndpoint_same s.col sub _, fun j => endpoint_setEndpoint_other s.col _, rfl, rfl, rfl, rfl,
      aggMask_getLsbD haxis16 hmotor, hpart, ?_, ?_, ?_, directionOf_of_invalid, rfl⟩
    all_goals rintro rfl; rfl

/-! ### `LE_INITIALIZE` (R204) -/

/-- An inert endpoint is refused. -/
theorem leInitialize_of_inert {sub : SubId} {s : State} {ep : Endpoint}
    (hep : s.col.endpoint sub = some ep) (hpart : ep.participates = false) :
    leInitialize sub s = .ok (s.recordLe .errDirection) := by
  simp [leInitialize, hep, hpart]

/-- On a bus pin that is not wired the refusal of `ATTACH` is handed back. -/
theorem leInitialize_of_unwired {sub : SubId} {s : State} {ep : Endpoint} {p : Fin 32}
    (hep : s.col.endpoint sub = some ep) (hpart : ep.participates = true) (hsource : ep.source = .bus p)
    (hp : s.bus.wiredBits ≤ p.val) : leInitialize sub s = .ok (s.recordLe (.errAttach .pinRange)) := by
  simp [leInitialize, hep, hpart, hsource, attachBus, hp]

/-- On a wired bus pin the endpoint is attached as `ATTACH` does it. -/
theorem leInitialize_of_wired {sub : SubId} {s : State} {ep : Endpoint} {p : Fin 32}
    (hep : s.col.endpoint sub = some ep) (hpart : ep.participates = true) (hsource : ep.source = .bus p)
    (hp : p.val < s.bus.wiredBits) :
    leInitialize sub s = .ok (((s.withBus (s.bus.subscribe sub p.val)).withCol
      ((s.col.setEndpoint sub (setAttached ep true)).orLimitMask ep.bitmask)).recordLe .ok) := by
  simp [leInitialize, hep, hpart, hsource, attachBus, Nat.not_le_of_lt hp]

/-- On a native pin the block has no part. -/
theorem leInitialize_of_native {sub : SubId} {s : State} {ep : Endpoint} {n : PinId}
    (hep : s.col.endpoint sub = some ep) (hpart : ep.participates = true) (hsource : ep.source = .native n) :
    leInitialize sub s = .ok ((s.withCol
      ((s.col.setEndpoint sub (setAttached ep true)).orLimitMask ep.bitmask)).recordLe .ok) := by
  simp only [leInitialize, hep, hpart, hsource, if_true]
  rfl

/-- Settles O38, by the four ways `LE_INITIALIZE` can end. -/
theorem initializeResult : Obligations.InitializeResult := by
  unfold Obligations.InitializeResult
  intro sub rest s ep hin hep
  have hstep : ∀ {t}, leInitialize sub (s.withInputs rest) = .ok t → step s = .next t :=
    step_of_completed hin rfl
  refine ⟨fun hpart => ?_, fun p hpart hsource hp => ?_, fun p hpart hsource hp => ?_,
    fun n hpart hsource => ?_⟩
  · exact hstep (leInitialize_of_inert hep hpart)
  · exact hstep (leInitialize_of_unwired hep hpart hsource hp)
  · exact ⟨_, _, hstep (leInitialize_of_wired hep hpart hsource hp), exec_attach_of_wired hp, rfl,
      endpoint_setEndpoint_same s.col sub _, fun j => endpoint_setEndpoint_other s.col _, rfl⟩
  · exact ⟨_, hstep (leInitialize_of_native hep hpart hsource),
      endpoint_setEndpoint_same s.col sub _, fun j => endpoint_setEndpoint_other s.col _, rfl⟩

/-! ### `LE_MAKE_DUAL_AXIS_MASK` (R208) -/

/-- The operation of a constructed endpoint writes its mask. -/
theorem leMakeDualAxisMask_of_some {sub : SubId} {s : State} {ep : Endpoint}
    (hep : s.col.endpoint sub = some ep) :
    leMakeDualAxisMask sub s =
      .ok ((s.withCol (s.col.setEndpoint sub { ep with bitmask := dualAxisMask ep.axis })).recordLe .ok) := by
  simp only [leMakeDualAxisMask, hep]

/-- Settles O39, reading the folded mask bit by bit. -/
theorem dualAxisMaskResult : Obligations.DualAxisMaskResult := by
  unfold Obligations.DualAxisMaskResult
  intro sub rest s ep hin hep haxis
  exact ⟨_, dualAxisMask ep.axis, step_of_completed hin rfl (leMakeDualAxisMask_of_some hep),
    endpoint_setEndpoint_same s.col sub _, dualAxisMask_getLsbD haxis,
    fun j => endpoint_setEndpoint_other s.col _, rfl⟩

/-! ### `LE_TEARDOWN` (R209) -/

/-- The block after a teardown: detached on a bus pin, untouched on a native one. -/
def Bus.released (b : Bus) : Source → Bus
  | .bus p => b.unsubscribe p.val
  | .native _ => b

/-- A teardown writes no register but `INTEREST`. -/
theorem Bus.released_frame (b : Bus) (source : Source) :
    b.released source = { b with interest := (b.released source).interest } := by
  cases source <;> rfl

/-- The operation of a constructed endpoint releases its source and the record. -/
theorem leTeardown_of_some {sub : SubId} {s : State} {ep : Endpoint} (hep : s.col.endpoint sub = some ep) :
    leTeardown sub s = .ok (((s.withBus (s.bus.released ep.source)).withCol
      (s.col.setEndpoint sub (setAttached ep false))).recordLe .ok) := by
  simp only [leTeardown, hep]
  cases ep.source <;> rfl

/-- Settles O40: what the release of each kind of source does to `INTEREST`, bit by bit. -/
theorem teardownResult : Obligations.TeardownResult := by
  unfold Obligations.TeardownResult
  intro sub rest s ep hin hep
  refine ⟨_, step_of_completed hin rfl (leTeardown_of_some hep),
    endpoint_setEndpoint_same s.col sub _, fun j => endpoint_setEndpoint_other s.col _,
    fun p hsource j => ?_, fun n hsource => ?_, ?_⟩
  · simp only [State.recordLe_bus, State.withCol_bus, State.withBus_bus, hsource, Bus.released,
      Bus.unsubscribe_interest, clearBit_getLsbD, State.withInputs_bus, ne_comm]
  · simp only [State.recordLe_bus, State.withCol_bus, State.withBus_bus, hsource, Bus.released,
      State.withInputs_bus]
  · exact congrArg (fun b => (((s.withInputs rest).withBus b).withCol
      (s.col.setEndpoint sub (setAttached ep false))).recordLe .ok) (s.bus.released_frame ep.source)

/-! ### `ENV` steps (R211) -/

/-- A step of `ENV` or of a native pin reaches the collaborators alone. -/
theorem step_env {e : EnvStep} {rest : List Input} {s : State} (hin : s.inputs = .agent (.env e) :: rest) :
    step s = .next { s with inputs := rest, col := envStep e s.col } :=
  step_of_agent hin

/-- Settles O47: each step is the one write of `envStep`. -/
theorem envStepResults : Obligations.EnvStepResults := by
  unfold Obligations.EnvStepResults
  exact fun rest s =>
    ⟨fun x => step_env, fun b => step_env, step_env, step_env, step_env, step_env, step_env⟩

/-! ### What endpoints contribute to one change of level (R206, R210) -/

/-- What endpoints whose handlers run at one level contribute together: the bits they write in each mask, and
whether one of them participates. -/
structure Activation where
  pos : Word
  neg : Word
  acts : Bool

/-- No endpoint contributes nothing. -/
def Activation.empty : Activation := ⟨0#32, 0#32, false⟩

/-- What two groups of endpoints contribute together. -/
def Activation.both (a b : Activation) : Activation := ⟨a.pos ||| b.pos, a.neg ||| b.neg, a.acts || b.acts⟩

/-- The bits of an endpoint's mask, where it participates and its direction is one that `writes`. -/
def Endpoint.bits (ep : Endpoint) (writes : Direction → Bool) : Word :=
  if ep.participates && writes ep.dir then ep.bitmask else 0#32

/-- What one endpoint contributes (R206). -/
def Endpoint.activation (ep : Endpoint) : Activation :=
  ⟨ep.bits writesPos, ep.bits writesNeg, ep.participates⟩

/-- The bits that the endpoints of a list write together. -/
def bitsOf (writes : Direction → Bool) (eps : List Endpoint) : Word :=
  eps.foldr (fun ep m => ep.bits writes ||| m) 0#32

/-- What the endpoints of a list contribute together. -/
def activations (eps : List Endpoint) : Activation :=
  ⟨bitsOf writesPos eps, bitsOf writesNeg eps, eps.any (·.participates)⟩

/-- Whether a change to level `lvl` records `HARD_LIMIT` and calls the emergency stop (R206 lines A4, A5). -/
def Activation.stops (a : Activation) (lvl : Bool) (c : Collab) : Bool :=
  a.acts && lvl && c.alarmArmed && decide (c.alarm = 0#8)

/-- The collaborators after the handlers of the contributing endpoints at level `lvl`. -/
def Activation.apply (a : Activation) (lvl : Bool) (c : Collab) : Collab :=
  { c with
    posMask := maskWrite lvl a.pos c.posMask
    negMask := maskWrite lvl a.neg c.negMask
    alarm := if a.stops lvl c then 1#8 else c.alarm
    estops := if a.stops lvl c then c.estops + 1 else c.estops }

/-- `stops` in the rule's words (R206). -/
theorem Activation.stops_iff (a : Activation) (lvl : Bool) (c : Collab) :
    a.stops lvl c = true ↔
      lvl = true ∧ a.acts = true ∧ c.sysState = .other ∧ c.hardLimits = true ∧ c.alarm = 0#8 := by
  simp only [Activation.stops, Bool.and_eq_true, decide_eq_true_eq, alarmArmed_iff]
  tauto

/-- A change that stops records the cause and counts one stop. -/
theorem Activation.apply_of_stops {a : Activation} {lvl : Bool} {c : Collab} (h : a.stops lvl c = true) :
    (a.apply lvl c).alarm = 1#8 ∧ (a.apply lvl c).estops = c.estops + 1 :=
  ⟨if_pos h, if_pos h⟩

/-- Any other change leaves `ALARM` and `ESTOPS` alone. -/
theorem Activation.apply_of_not_stops {a : Activation} {lvl : Bool} {c : Collab} (h : ¬ a.stops lvl c = true) :
    (a.apply lvl c).alarm = c.alarm ∧ (a.apply lvl c).estops = c.estops :=
  ⟨if_neg h, if_neg h⟩

/-- A mask write of no bit does nothing. -/
theorem maskWrite_zero (lvl : Bool) (w : Word) : maskWrite lvl 0#32 w = w := by
  refine BitVec.eq_of_getLsbD_eq fun j _ => ?_
  rw [maskWrite_getLsbD, BitVec.getLsbD_zero, if_neg Bool.false_ne_true]

/-- The write of the bits a participating endpoint contributes is made or not, as its direction says. -/
theorem maskWrite_bits {ep : Endpoint} (hpart : ep.participates = true) (lvl : Bool)
    (writes : Direction → Bool) (w : Word) :
    maskWrite lvl (ep.bits writes) w = if writes ep.dir then maskWrite lvl ep.bitmask w else w := by
  rw [Endpoint.bits, hpart, Bool.true_and]
  cases writes ep.dir
  · exact maskWrite_zero lvl w
  · rfl

/-- Two mask writes at one level are one write of both masks' bits. -/
theorem maskWrite_maskWrite (lvl : Bool) (m m' w : Word) :
    maskWrite lvl m' (maskWrite lvl m w) = maskWrite lvl (m ||| m') w := by
  refine BitVec.eq_of_getLsbD_eq fun j _ => ?_
  simp only [maskWrite_getLsbD, BitVec.getLsbD_or]
  cases m.getLsbD j <;> cases m'.getLsbD j <;> rfl

/-- After a first group, a second one stops exactly when it would have and the first did not. -/
theorem Activation.stops_apply (a b : Activation) (lvl : Bool) (c : Collab) :
    b.stops lvl (a.apply lvl c) = (b.stops lvl c && !a.stops lvl c) := by
  have harmed : (a.apply lvl c).alarmArmed = c.alarmArmed := rfl
  cases h : a.stops lvl c with
  | true => simp [Activation.stops, (Activation.apply_of_stops h).1]
  | false =>
    have hkept := (Activation.apply_of_not_stops (Bool.eq_false_iff.mp h)).1
    simp [Activation.stops, harmed, hkept]

/-- Two groups together stop exactly when one of them does alone. -/
theorem Activation.stops_both (a b : Activation) (lvl : Bool) (c : Collab) :
    (a.both b).stops lvl c = (a.stops lvl c || b.stops lvl c) := by
  simp only [Activation.stops, Activation.both, Bool.and_or_distrib_right]

/-- Two groups, one after the other, do what they do together. -/
theorem Activation.apply_both (a b : Activation) (lvl : Bool) (c : Collab) :
    b.apply lvl (a.apply lvl c) = (a.both b).apply lvl c := by
  have hpos := maskWrite_maskWrite lvl a.pos b.pos c.posMask
  have hneg := maskWrite_maskWrite lvl a.neg b.neg c.negMask
  rw [Activation.apply, Activation.stops_apply, Activation.apply, Activation.apply, Activation.stops_both]
  cases a.stops lvl c <;> cases b.stops lvl c <;> simp [Activation.both, hpos, hneg]

/-- The order of two groups does not matter. -/
theorem Activation.both_comm (a b : Activation) : a.both b = b.both a := by
  simp only [Activation.both, BitVec.or_comm, Bool.or_comm]

/-- Nothing contributed, nothing changed. -/
theorem Activation.apply_empty (lvl : Bool) (c : Collab) : Activation.empty.apply lvl c = c := by
  have hpos := maskWrite_zero lvl c.posMask
  have hneg := maskWrite_zero lvl c.negMask
  simp [Activation.apply, Activation.empty, Activation.stops, hpos, hneg]

/-- The handler of an inert endpoint does nothing, in either context (R203, R206). -/
theorem leOnLevel_of_inert {slot : Collab → Collab} {ep : Endpoint} {lvl : Bool} {c : Collab}
    (h : ep.participates = false) : leOnLevel slot ep lvl c = c := by
  simp [leOnLevel, h]

/-- The two mask writes of a handler, mask by mask (R206 lines A2, A3). -/
theorem leWrites_eq (ep : Endpoint) (lvl : Bool) (c : Collab) :
    leWriteNeg ep lvl (leWritePos ep lvl c) =
      { c with
        posMask := if writesPos ep.dir then maskWrite lvl ep.bitmask c.posMask else c.posMask
        negMask := if writesNeg ep.dir then maskWrite lvl ep.bitmask c.negMask else c.negMask } := by
  unfold leWriteNeg leWritePos
  split <;> split <;> rfl

/-- The handler in interrupt context is what its endpoint contributes. -/
theorem leOnLevel_id_eq_apply (ep : Endpoint) (lvl : Bool) (c : Collab) :
    leOnLevel id ep lvl c = ep.activation.apply lvl c := by
  cases hpart : ep.participates with
  | false =>
    have hnone : ep.activation = .empty := by
      simp only [Endpoint.activation, Endpoint.bits, hpart, Bool.false_and]
      rfl
    rw [leOnLevel_of_inert hpart, hnone, Activation.apply_empty]
  | true =>
    have hstops : ep.activation.stops lvl c = ((lvl && c.alarmArmed) && decide (c.alarm = 0#8)) := by
      simp only [Activation.stops, Endpoint.activation, hpart, Bool.true_and]
    rw [leOnLevel_id, if_pos hpart, leRaise_eq, leWrites_eq, Activation.apply, hstops]
    simp only [Endpoint.activation, maskWrite_bits hpart]
    cases lvl && c.alarmArmed with
    | false => rfl
    | true => by_cases h : c.alarm = 0#8 <;> simp [h]

/-! ### The edge handler in interrupt context (R205, R206) -/

/-- `dir in {POS, BOTH}` in the rule's words. -/
theorem writesPos_iff (d : Direction) : writesPos d = true ↔ d = .pos ∨ d = .both := by
  cases d <;> simp [writesPos]

/-- `dir in {NEG, BOTH}` in the rule's words. -/
theorem writesNeg_iff (d : Direction) : writesNeg d = true ↔ d = .neg ∨ d = .both := by
  cases d <;> simp [writesNeg]

/-- On a bus pin the handler first passes the slot before line A1 and then works at the level of `LIW`. -/
theorem leOnEdge_of_bus {slot : Collab → Collab} {liw : Word} {ep : Endpoint} {p : Fin 32} {c : Collab}
    (h : ep.source = .bus p) :
    leOnEdge slot liw ep c = leOnLevel slot ep (liw.getLsbD p.val) (slot c) := by
  simp only [leOnEdge, h, readLevel]

/-- On a native source it draws the level. -/
theorem leOnEdge_of_native {slot : Collab → Collab} {liw : Word} {ep : Endpoint} {n : PinId} {c : Collab}
    (h : ep.source = .native n) :
    leOnEdge slot liw ep c = leOnLevel slot ep (Config.freeNativeLevel (slot c).draws) (slot c).draw := by
  simp only [leOnEdge, h, readLevel]

/-- Settles O41: both ways to the handler are the one write `Activation.apply`. -/
theorem edgeHandlerResult : Obligations.EdgeHandlerResult := by
  unfold Obligations.EdgeHandlerResult
  refine ⟨fun liw ep lvl c r hr => ?_, fun liw ep c n hsource => ⟨_, leOnEdge_of_native hsource⟩⟩
  obtain rfl : r = leOnLevel id ep lvl c := by
    obtain hr | ⟨p, hsource, rfl, hr⟩ := hr
    · exact hr
    · rw [hr, leOnEdge_of_bus hsource]
      rfl
  refine ⟨leOnLevel_of_inert, fun hpart => ?_⟩
  have hstops := ep.activation.stops_iff lvl c
  rw [leOnLevel_id_eq_apply]
  refine ⟨?_, ?_, fun hlvl hsys hlim halarm => ?_, fun hnot => ?_, rfl⟩
  · simp only [Activation.apply, Endpoint.activation, maskWrite_bits hpart, writesPos_iff]
    rfl
  · simp only [Activation.apply, Endpoint.activation, maskWrite_bits hpart, writesNeg_iff]
    rfl
  · exact Activation.apply_of_stops (hstops.mpr ⟨hlvl, hpart, hsys, hlim, halarm⟩)
  · refine Activation.apply_of_not_stops fun hs => hnot ?_
    obtain ⟨hlvl, -, harmed⟩ := hstops.mp hs
    exact ⟨hlvl, harmed⟩

/-! ### `NATIVE_CHANGE` (R210) -/

/-- The handlers of a list of endpoints, one after the other, do what the list contributes together. -/
theorem foldl_leOnLevel_eq_apply (lvl : Bool) (eps : List Endpoint) (c : Collab) :
    eps.foldl (fun d ep => leOnLevel id ep lvl d) c = (activations eps).apply lvl c := by
  induction eps generalizing c with
  | nil => exact (Activation.apply_empty lvl c).symm
  | cons ep eps ih => rw [List.foldl_cons, ih, leOnLevel_id_eq_apply, Activation.apply_both]; rfl

/-- The handlers of two endpoints at one level commute, so any order of a list gives the same. -/
theorem foldl_leOnLevel_perm (lvl : Bool) {eps eps' : List Endpoint} (h : eps.Perm eps') (c : Collab) :
    eps.foldl (fun d ep => leOnLevel id ep lvl d) c = eps'.foldl (fun d ep => leOnLevel id ep lvl d) c := by
  refine h.foldl_eq' (fun ep _ fp _ d => ?_) c
  simp only [leOnLevel_id_eq_apply, Activation.apply_both, Activation.both_comm]

/-- The endpoint under `sub`, where it is attached and bound to the native pin `n`. -/
def Collab.boundTo (c : Collab) (n : PinId) (sub : SubId) : Option Endpoint :=
  (c.endpoint sub).filter fun ep => decide (ep.source = .native n ∧ ep.attached = true)

/-- Which endpoint that is. -/
theorem Collab.boundTo_eq_some_iff {c : Collab} {n : PinId} {sub : SubId} {ep : Endpoint} :
    c.boundTo n sub = some ep ↔
      c.endpoint sub = some ep ∧ ep.source = .native n ∧ ep.attached = true := by
  simp only [Collab.boundTo, Option.filter_eq_some_iff, decide_eq_true_eq]

/-- One visit of a native pin change runs the handler of such an endpoint alone. -/
theorem nativeChangeOne_eq (n : PinId) (lvl : Bool) (c : Collab) (sub : SubId) :
    nativeChangeOne n lvl c sub = (c.boundTo n sub).elim c fun ep => leOnLevel id ep lvl c := by
  unfold nativeChangeOne Collab.boundTo
  cases c.endpoint sub with
  | none => rfl
  | some ep =>
    rw [Option.filter_some]
    simp only [decide_eq_true_eq]
    split <;> rfl

/-- A native pin change over any identifiers runs the handlers of those endpoints in their order: no handler
changes which ones they are. -/
theorem foldl_nativeChangeOne (n : PinId) (lvl : Bool) (c : Collab) (subs : List SubId) (d : Collab)
    (h : d.fixed = c.fixed) :
    subs.foldl (nativeChangeOne n lvl) d =
      (subs.filterMap (c.boundTo n)).foldl (fun d ep => leOnLevel id ep lvl d) d := by
  induction subs generalizing d with
  | nil => rfl
  | cons sub subs ih =>
    have hbound : d.boundTo n sub = c.boundTo n sub := by
      rw [Collab.boundTo, endpoint_of_fixed c d h, Collab.boundTo]
    rw [List.foldl_cons, ih _ ((nativeChangeOne_fixed n lvl d sub).trans h), nativeChangeOne_eq, hbound]
    cases hep : c.boundTo n sub with
    | none => rw [List.filterMap_cons_none hep]; rfl
    | some ep => rw [List.filterMap_cons_some hep]; rfl

/-- A native pin change is what the attached endpoints on the pin contribute. -/
theorem nativeChange_eq_apply (n : PinId) (lvl : Bool) (c : Collab) :
    nativeChange n lvl c = (activations (allSubs.filterMap (c.boundTo n))).apply lvl c := by
  rw [nativeChange, foldl_nativeChangeOne n lvl c allSubs c rfl, foldl_leOnLevel_eq_apply]

/-- The identifiers of the attached endpoints on the pin, in whatever order, give the whole change. -/
theorem nativeChange_of_order (n : PinId) (lvl : Bool) (c : Collab) {subs : List SubId} (hnodup : subs.Nodup)
    (hmem : ∀ sub, sub ∈ subs ↔
      ∃ ep, c.endpoint sub = some ep ∧ ep.source = .native n ∧ ep.attached = true) :
    nativeChange n lvl c = (subs.filterMap c.endpoint).foldl (fun d ep => leOnLevel id ep lvl d) c := by
  have hbound : ∀ sub, sub ∈ subs ↔ ∃ ep, c.boundTo n sub = some ep := fun sub => by
    rw [hmem sub]
    exact exists_congr fun ep => Collab.boundTo_eq_some_iff.symm
  have hsame : subs.filterMap c.endpoint = subs.filterMap (c.boundTo n) := by
    refine List.filterMap_congr fun sub hsub => ?_
    obtain ⟨ep, hep⟩ := (hbound sub).mp hsub
    rw [hep, (Collab.boundTo_eq_some_iff.mp hep).1]
  have hperm : (allSubs.filterMap (c.boundTo n)).Perm (subs.filterMap (c.boundTo n)) := by
    have hvisited : (allSubs.filter fun sub => (c.boundTo n sub).isSome).Perm subs := by
      refine (List.perm_ext_iff_of_nodup (allSubs_nodup.filter _) hnodup).mpr fun sub => ?_
      rw [hbound sub, List.mem_filter, Option.isSome_iff_exists, and_iff_right (mem_allSubs sub)]
    have hskip : (allSubs.filter fun sub => (c.boundTo n sub).isSome).filterMap (c.boundTo n) =
        allSubs.filterMap (c.boundTo n) := by
      rw [List.filterMap_filter]
      refine List.filterMap_congr fun sub _ => ?_
      cases c.boundTo n sub <;> rfl
    exact hskip ▸ hvisited.filterMap (c.boundTo n)
  rw [nativeChange, foldl_nativeChangeOne n lvl c allSubs c rfl, hsame, foldl_leOnLevel_perm lvl hperm]

/-- The bits that the endpoints of a list write together are those that one of them writes. -/
theorem bitsOf_getLsbD (writes : Direction → Bool) (eps : List Endpoint) (j : Nat) :
    (bitsOf writes eps).getLsbD j = true ↔
      ∃ ep ∈ eps, ep.participates = true ∧ writes ep.dir = true ∧ ep.bitmask.getLsbD j = true := by
  induction eps with
  | nil => simp [bitsOf]
  | cons ep eps ih =>
    have hcons : bitsOf writes (ep :: eps) = ep.bits writes ||| bitsOf writes eps := rfl
    have hhead : (ep.bits writes).getLsbD j = true ↔
        ep.participates = true ∧ writes ep.dir = true ∧ ep.bitmask.getLsbD j = true := by
      rw [Endpoint.bits]
      cases ep.participates <;> cases writes ep.dir <;> simp
    rw [hcons, BitVec.getLsbD_or, Bool.or_eq_true, hhead, ih, List.exists_mem_cons_iff]

/-- Endpoints can raise the alarm as soon as one of them participates. -/
theorem activations_acts (eps : List Endpoint) :
    (activations eps).acts = true ↔ ∃ ep ∈ eps, ep.participates = true :=
  List.any_eq_true

/-- Settles O46: the first two clauses are the third with no identifier and with one; the third reads the
one write of `activations` field by field. -/
theorem nativeChangeResult : Obligations.NativeChangeResult := by
  unfold Obligations.NativeChangeResult
  intro n lvl rest s hin
  have hstep : ∀ {subs : List SubId}, subs.Nodup → (∀ sub, sub ∈ subs ↔
      ∃ ep, s.col.endpoint sub = some ep ∧ ep.source = .native n ∧ ep.attached = true) →
      step s = .next { s with
        inputs := rest
        col := (subs.filterMap s.col.endpoint).foldl (fun d ep => leOnLevel id ep lvl d) s.col } := by
    intro subs hnodup hmem
    rw [step_env hin, envStep, nativeChange_of_order n lvl s.col hnodup hmem]
  refine ⟨fun hnone => ?_, fun sub ep hep hsource hatt honly => ?_, fun subs eps hnodup hmem heps => ?_⟩
  · refine hstep List.nodup_nil fun sub => ⟨fun h => absurd h List.not_mem_nil, ?_⟩
    rintro ⟨ep, hep, hsource, hatt⟩
    rw [hnone sub ep hep hsource] at hatt
    cases hatt
  · have hone := hstep (List.nodup_singleton sub) fun sub' => by
      rw [List.mem_singleton]
      refine ⟨fun h => ⟨ep, h ▸ hep, hsource, hatt⟩, ?_⟩
      rintro ⟨ep', hep', hsource', hatt'⟩
      exact honly sub' ep' hep' hsource' hatt'
    rwa [List.filterMap_cons_some hep] at hone
  · subst heps
    have hstops := (activations (subs.filterMap s.col.endpoint)).stops_iff lvl s.col
    rw [activations_acts] at hstops
    refine ⟨_, hstep hnodup hmem, rfl, ?_⟩
    rw [foldl_leOnLevel_eq_apply]
    refine ⟨fun j => ?_, fun j => ?_, fun hs => Activation.apply_of_stops (hstops.mpr hs),
      fun hs => Activation.apply_of_not_stops (mt hstops.mp hs), rfl⟩
    · simp only [Activation.apply, activations, maskWrite_getLsbD, bitsOf_getLsbD, writesPos_iff]
    · simp only [Activation.apply, activations, maskWrite_getLsbD, bitsOf_getLsbD, writesNeg_iff]

/-! ### The masks between the handler's actions (R213, R216) -/

/-- No native pin changes: what R213 and R216 ask of the steps between the actions. -/
def NoNativeChange (e : EnvStep) : Prop := ∀ n l, e ≠ .nativeChange n l

/-- In the context `slot`, where no native pin changes any more, the two masks read `pos` and `neg`. -/
structure MasksAre (slot : Collab → Collab) (pos neg : Word) (c : Collab) : Prop where
  context : InContext NoNativeChange slot c
  posIs : c.posMask = pos
  negIs : c.negMask = neg

/-- No step of the environment but a native pin change writes a mask (R211). -/
theorem envStep_masks {e : EnvStep} (he : NoNativeChange e) (c : Collab) :
    (envStep e c).posMask = c.posMask ∧ (envStep e c).negMask = c.negMask := by
  cases e with
  | nativeChange n l => exact absurd rfl (he n l)
  | latchAlarm a =>
    rw [envStep, casAlarm_eq]
    split <;> exact ⟨rfl, rfl⟩
  | _ => exact ⟨rfl, rfl⟩

section
variable {slot : Collab → Collab} {pos neg : Word} {c : Collab}

/-- The slot before an action keeps the masks (R73). -/
theorem MasksAre.at_slot (h : MasksAre slot pos neg c) : MasksAre slot pos neg (slot c) := by
  obtain ⟨hctx, hpos, hneg⟩ := InContext.keeps (fun d => d.posMask = pos ∧ d.negMask = neg)
    (fun _ _ hd => hd)
    (fun e d he hd => ⟨(envStep_masks he d).1.trans hd.1, (envStep_masks he d).2.trans hd.2⟩)
    h.context ⟨h.posIs, h.negIs⟩
  exact ⟨hctx, hpos, hneg⟩

/-- Line A2 writes `POS_MASK` where the direction says so. -/
theorem MasksAre.leWritePos (h : MasksAre slot pos neg c) (ep : Endpoint) (lvl : Bool) :
    MasksAre slot (if writesPos ep.dir then maskWrite lvl ep.bitmask pos else pos) neg
      (leWritePos ep lvl c) := by
  unfold Machine.leWritePos
  split
  · exact ⟨h.context.of_preempts rfl, congrArg (maskWrite lvl ep.bitmask) h.posIs, h.negIs⟩
  · exact h

/-- Line A3 writes `NEG_MASK` where the direction says so. -/
theorem MasksAre.leWriteNeg (h : MasksAre slot pos neg c) (ep : Endpoint) (lvl : Bool) :
    MasksAre slot pos (if writesNeg ep.dir then maskWrite lvl ep.bitmask neg else neg)
      (leWriteNeg ep lvl c) := by
  unfold Machine.leWriteNeg
  split
  · exact ⟨h.context.of_preempts rfl, h.posIs, congrArg (maskWrite lvl ep.bitmask) h.negIs⟩
  · exact h

/-- Line A5 writes no mask. -/
theorem MasksAre.leRaise (h : MasksAre slot pos neg c) : MasksAre slot pos neg (leRaise c) := by
  rw [leRaise_eq]
  split
  · exact ⟨h.context.of_preempts rfl, h.posIs, h.negIs⟩
  · exact h

/-- What follows the mask writes of a handler writes no mask. -/
theorem MasksAre.afterWrites (h : MasksAre slot pos neg c) (lvl : Bool) :
    MasksAre slot pos neg
      (if lvl then if (slot c).alarmArmed then Machine.leRaise (slot (slot c)) else slot c else c) := by
  split
  · split
    · exact h.at_slot.at_slot.leRaise
    · exact h.at_slot
  · exact h

/-- Lines A2 to A5 of a participating endpoint write the two masks once each, as its direction says. -/
theorem MasksAre.leOnLevel (h : MasksAre slot pos neg c) {ep : Endpoint} (hpart : ep.participates = true)
    (lvl : Bool) :
    MasksAre slot (if writesPos ep.dir then maskWrite lvl ep.bitmask pos else pos)
      (if writesNeg ep.dir then maskWrite lvl ep.bitmask neg else neg) (leOnLevel slot ep lvl c) := by
  rw [Machine.leOnLevel, if_pos hpart]
  exact ((h.at_slot.leWritePos ep lvl).at_slot.leWriteNeg ep lvl).afterWrites lvl

end

/-- The bits of a mask after a write that is made or not. -/
theorem getLsbD_ite_maskWrite (b lvl : Bool) (m w : Word) (j : Nat) :
    (if b then maskWrite lvl m w else w).getLsbD j = if b && m.getLsbD j then lvl else w.getLsbD j := by
  cases b
  · rfl
  · exact maskWrite_getLsbD lvl m w j

/-- Settles O42: each direction's two writes, read at the bits of the endpoint's mask and outside them. -/
theorem maskSymmetry : Obligations.MaskSymmetry := by
  unfold Obligations.MaskSymmetry
  intro slot ep lvl c hpart hctx
  have hmasks : MasksAre slot c.posMask c.negMask c := ⟨hctx, rfl, rfl⟩
  obtain ⟨-, hpos, hneg⟩ := hmasks.leOnLevel hpart lvl
  rw [hpos, hneg]
  simp only [getLsbD_ite_maskWrite]
  refine ⟨fun hdir j hj => ?_, fun hdir => ⟨fun j hj => ?_, ?_⟩, fun hdir => ⟨fun j hj => ?_, ?_⟩,
    fun j hj => ?_⟩
  all_goals simp [*, writesPos, writesNeg]

/-- Settles O45: the folded mask holds both motors' bits, and each direction's masks take the level there. -/
theorem dualMotorFolding : Obligations.DualMotorFolding := by
  unfold Obligations.DualMotorFolding
  intro slot ep lvl c hpart haxis hmask hctx
  obtain ⟨hboth, hpos, hneg, -⟩ := maskSymmetry slot ep lvl c hpart hctx
  have hlow : ep.bitmask.getLsbD ep.axis = true := by
    rw [hmask, dualAxisMask_getLsbD haxis]
    simp
  have hhigh : ep.bitmask.getLsbD (ep.axis + 16) = true := by
    rw [hmask, dualAxisMask_getLsbD haxis]
    simp
  refine ⟨?_, ?_⟩
  · rintro (hdir | hdir)
    · exact ⟨(hpos hdir).1 _ hlow, (hpos hdir).1 _ hhigh⟩
    · exact ⟨(hboth hdir _ hlow).1, (hboth hdir _ hhigh).1⟩
  · rintro (hdir | hdir)
    · exact ⟨(hneg hdir).1 _ hlow, (hneg hdir).1 _ hhigh⟩
    · exact ⟨(hboth hdir _ hlow).2, (hboth hdir _ hhigh).2⟩

/-! ### Nothing stops while the alarm path is disarmed (R206, R212, R214, R265) -/

/-- Line A5 is not reached, or has nothing to do (R206 lines A4, A5). -/
def Disarmed (c : Collab) : Prop := c.sysState ≠ .other ∨ c.hardLimits = false ∨ c.alarm ≠ 0#8

/-- The words that lines A4 and A5 read or write (R206). -/
def Collab.alarmPath (c : Collab) : SysState × Bool × Alarm × Nat :=
  (c.sysState, c.hardLimits, c.alarm, c.estops)

/-- `d` is still disarmed, with the controller state, the cause and the count of stops of `c`. -/
structure Quiet (c d : Collab) : Prop where
  disarmed : Disarmed d
  sysState : d.sysState = c.sysState
  alarm : d.alarm = c.alarm
  estops : d.estops = c.estops

/-- It is said of the alarm path alone. -/
theorem Quiet.of_alarmPath {c d u : Collab} (h : Quiet c d) (hu : u.alarmPath = d.alarmPath) : Quiet c u := by
  simp only [Collab.alarmPath, Prod.mk.injEq] at hu
  obtain ⟨hsys, hlim, halarm, hestops⟩ := hu
  refine ⟨?_, hsys.trans h.sysState, halarm.trans h.alarm, hestops.trans h.estops⟩
  rw [Disarmed, hsys, hlim, halarm]
  exact h.disarmed

/-- In a disarmed state whatever handlers contribute stops nothing. -/
theorem Disarmed.not_stops {c : Collab} (h : Disarmed c) (a : Activation) (lvl : Bool) :
    ¬ a.stops lvl c = true := by
  rw [Activation.stops_iff]
  rintro ⟨-, -, hsys, hlim, halarm⟩
  obtain h | h | h := h
  · exact h hsys
  · rw [hlim] at h
    cases h
  · exact h halarm

/-- In a disarmed state that is armed by line A4, a cause is latched. -/
theorem Disarmed.latched {c : Collab} (h : Disarmed c) (harmed : c.alarmArmed = true) : c.alarm ≠ 0#8 := by
  obtain ⟨hsys, hlim⟩ := (alarmArmed_iff c).mp harmed
  obtain h | h | h := h
  · exact absurd hsys h
  · rw [hlim] at h
    cases h
  · exact h

/-- A native pin change keeps a quiet state quiet (R210). -/
theorem Quiet.nativeChange {c d : Collab} (h : Quiet c d) (n : PinId) (lvl : Bool) :
    Quiet c (nativeChange n lvl d) := by
  rw [nativeChange_eq_apply]
  obtain ⟨halarm, hestops⟩ := Activation.apply_of_not_stops
    (h.disarmed.not_stops (activations (allSubs.filterMap (d.boundTo n))) lvl)
  refine ⟨?_, h.sysState, halarm.trans h.alarm, hestops.trans h.estops⟩
  rw [Disarmed, halarm]
  exact h.disarmed

/-- Every step that may fall between the actions keeps a state quiet. -/
def KeepsQuiet (allowed : EnvStep → Prop) (c : Collab) : Prop :=
  ∀ e d, allowed e → Quiet c d → Quiet c (envStep e d)

/-- `d` is quiet, and what is still to fall between the actions of the context `slot` is `allowed`. -/
structure QuietIn (allowed : EnvStep → Prop) (slot : Collab → Collab) (c d : Collab) : Prop where
  context : InContext allowed slot d
  quiet : Quiet c d

section
variable {allowed : EnvStep → Prop} {slot : Collab → Collab} {c d : Collab}

/-- A write of neither the alarm path nor the environment's choices keeps it. -/
theorem QuietIn.of_eq {u : Collab} (h : QuietIn allowed slot c d) (hpre : u.preempts = d.preempts)
    (hpath : u.alarmPath = d.alarmPath) : QuietIn allowed slot c u :=
  ⟨h.context.of_preempts hpre, h.quiet.of_alarmPath hpath⟩

/-- The slot before an action keeps it (R73). -/
theorem QuietIn.at_slot (henv : KeepsQuiet allowed c) (h : QuietIn allowed slot c d) :
    QuietIn allowed slot c (slot d) := by
  obtain ⟨hctx, hq⟩ := InContext.keeps (Quiet c) (fun _ _ hu => hu.of_alarmPath rfl) henv h.context h.quiet
  exact ⟨hctx, hq⟩

/-- Lines A2 to A5 keep it: where line A4 finds the path armed, a cause is latched (R206). -/
theorem QuietIn.leOnLevel (henv : KeepsQuiet allowed c) (h : QuietIn allowed slot c d) (ep : Endpoint)
    (lvl : Bool) : QuietIn allowed slot c (leOnLevel slot ep lvl d) := by
  refine leOnLevel_keeps (QuietIn allowed slot c) (fun _ _ hu => hu.of_eq rfl rfl)
    (fun _ _ hu => hu.of_eq rfl rfl) slot (fun _ hu => hu.at_slot henv) (fun u hu harmed => ?_) ep lvl d h
  have hnext := hu.at_slot henv
  have hsame : (slot u).alarm = u.alarm := hnext.quiet.alarm.trans hu.quiet.alarm.symm
  rw [leRaise_of_latched _ (hsame ▸ hu.quiet.disarmed.latched harmed)]
  exact hnext

/-- So does the whole handler, line A1 included (R205, R206). -/
theorem QuietIn.leOnEdge (henv : KeepsQuiet allowed c) (h : QuietIn allowed slot c d) (liw : Word)
    (ep : Endpoint) : QuietIn allowed slot c (leOnEdge slot liw ep d) := by
  cases hsource : ep.source with
  | bus p =>
    rw [leOnEdge_of_bus hsource]
    exact (h.at_slot henv).leOnLevel henv ep _
  | native n =>
    rw [leOnEdge_of_native hsource]
    have hdrawn : QuietIn allowed slot c (slot d).draw := (h.at_slot henv).of_eq rfl rfl
    exact hdrawn.leOnLevel henv ep _

/-- The handler of every subscriber keeps it where none is supplied (R175). -/
theorem QuietIn.runHandler (henv : KeepsQuiet allowed c) (h : QuietIn allowed slot c d)
    (hnone : d.supplied = []) (liw : Word) (sub : SubId) (pin : Nat) (lvl : Bool) :
    QuietIn allowed slot c (runHandler slot liw sub pin lvl d) := by
  obtain ⟨hendpoint, hneither⟩ := handlerMapIsTotal slot liw sub pin lvl d
  cases hep : d.endpoint sub with
  | some ep =>
    rw [hendpoint ep hep]
    exact h.leOnEdge henv liw ep
  | none =>
    rw [hneither hep (hnone ▸ List.not_mem_nil)]
    exact h

/-- The handlers of any events keep it: they supply none. -/
theorem QuietIn.handled (henv : KeepsQuiet allowed c) (hslot : slot = id ∨ slot = preemptSlot)
    (h : QuietIn allowed slot c d) (hnone : d.supplied = []) (nv : Word) (es : List Event) :
    QuietIn allowed slot c (handled slot nv es d) := by
  induction es generalizing d with
  | nil => exact h
  | cons e es ih =>
    have hfixed := handled_fixed slot hslot nv [e] d
    have hsupplied := congrArg (fun w => w.2.2) hfixed
    exact ih (h.runHandler henv hnone nv e.sub e.pin e.lvl) (hsupplied.trans hnone)

end

/-- Settles O43: outside `OTHER`, or with a cause latched, the allowed steps keep the state quiet, whatever
`HARD_LIMITS` becomes. -/
theorem alarmLatchIdempotence : Obligations.AlarmLatchIdempotence := by
  unfold Obligations.AlarmLatchIdempotence
  intro slot edges c hc hctx
  have henv : KeepsQuiet
      (fun e => e ≠ .clearAlarm ∧ (∀ a, e ≠ .latchAlarm a) ∧ ∀ x, e ≠ .setSysState x) c := by
    rintro e d ⟨hclear, hlatch, hsys⟩ hd
    cases e with
    | nativeChange n lvl => exact hd.nativeChange n lvl
    | setSysState x => exact absurd rfl (hsys x)
    | setHardLimits b =>
      refine ⟨?_, hd.sysState, hd.alarm, hd.estops⟩
      rw [← hd.sysState, ← hd.alarm] at hc
      exact hc.imp_right .inr
    | clearAlarm => exact absurd rfl hclear
    | latchAlarm a => exact absurd rfl (hlatch a)
    | read r => exact hd.of_alarmPath rfl
  have hstart : QuietIn _ slot c c := ⟨hctx, hc.imp_right .inr, rfl, rfl, rfl⟩
  have hend := List.foldlRecOn (motive := QuietIn _ slot c) edges
    (fun d e => leOnLevel slot e.1 e.2 d) hstart fun d hd e _ => hd.leOnLevel henv e.1 e.2
  exact ⟨hend.quiet.alarm, hend.quiet.estops⟩

/-! ### The whole machine while the alarm path is disarmed (R206, R212, R265) -/

/-- The environment acts only by reading (R211). -/
def OnlyReads (e : EnvStep) : Prop := ∃ r, e = .read r

/-- Reading keeps a state quiet. -/
theorem keepsQuiet_onlyReads (c : Collab) : KeepsQuiet OnlyReads c := by
  rintro _ d ⟨r, rfl⟩ h
  exact h.of_alarmPath rfl

/-- A step of the environment or of a native pin stops nothing in a disarmed state (R210, R211). -/
theorem envStep_estops (e : EnvStep) {c : Collab} (h : Disarmed c) : (envStep e c).estops = c.estops := by
  cases e with
  | nativeChange n lvl => exact (Quiet.nativeChange ⟨h, rfl, rfl, rfl⟩ n lvl).estops
  | latchAlarm a =>
    rw [envStep, casAlarm_eq]
    split <;> rfl
  | _ => rfl

/-- Settles O59, by the writes a step can make to the collaborators. -/
theorem emergencyStopOnlyWhenArmed : Obligations.EmergencyStopOnlyWhenArmed := by
  unfold Obligations.EmergencyStopOnlyWhenArmed
  intro s t hdisarmed hsupplied hreads h
  have hw := step_colWrite s t h
  generalize t.col = c at hw ⊢
  cases hw with
  | handlers slot hslot nv es =>
    have hstart : QuietIn OnlyReads slot s.col s.col :=
      ⟨hslot.imp_right fun hs => ⟨hs, hreads⟩, hdisarmed, rfl, rfl, rfl⟩
    exact (hstart.handled (keepsQuiet_onlyReads s.col) hslot hsupplied nv es).quiet.estops
  | env e rest hin => exact envStep_estops e hdisarmed
  | _ => rfl

/-! ### A source found inactive (R215) -/

/-- A handler at level 0 ends with its mask writes (R206). -/
theorem leOnLevel_of_inactive {slot : Collab → Collab} {ep : Endpoint} {c : Collab}
    (hpart : ep.participates = true) :
    leOnLevel slot ep false c = leWriteNeg ep false (slot (leWritePos ep false (slot c))) := by
  simp [leOnLevel, hpart]

/-- `d` has the cause and the count of stops of `c`. -/
def SameStops (c d : Collab) : Prop := d.alarm = c.alarm ∧ d.estops = c.estops

/-- Line A2 keeps the cause and the count of stops. -/
theorem leWritePos_sameStops (ep : Endpoint) (lvl : Bool) (c : Collab) : SameStops c (leWritePos ep lvl c) := by
  unfold leWritePos
  split <;> exact ⟨rfl, rfl⟩

/-- So does line A3. -/
theorem leWriteNeg_sameStops (ep : Endpoint) (lvl : Bool) (c : Collab) : SameStops c (leWriteNeg ep lvl c) := by
  unfold leWriteNeg
  split <;> exact ⟨rfl, rfl⟩

/-- Kept twice is kept. -/
theorem SameStops.trans {c d u : Collab} (h : SameStops c d) (h' : SameStops d u) : SameStops c u :=
  ⟨h'.1.trans h.1, h'.2.trans h.2⟩

/-- The steps R215 allows between the actions neither write `ALARM` nor make a native pin active. -/
def NoCauseNoActivation (e : EnvStep) : Prop :=
  e ≠ .clearAlarm ∧ (∀ a, e ≠ .latchAlarm a) ∧ ∀ n, e ≠ .nativeChange n true

/-- Such a step keeps the cause and the count of stops: a native pin can become inactive only (R210). -/
theorem envStep_sameStops {e : EnvStep} (he : NoCauseNoActivation e) (c : Collab) :
    SameStops c (envStep e c) := by
  obtain ⟨hclear, hlatch, hactive⟩ := he
  cases e with
  | nativeChange n lvl =>
    cases lvl with
    | true => exact absurd rfl (hactive n)
    | false =>
      rw [envStep, nativeChange_eq_apply]
      refine Activation.apply_of_not_stops fun hs => ?_
      have hlvl := ((Activation.stops_iff _ _ _).mp hs).1
      cases hlvl
  | clearAlarm => exact absurd rfl hclear
  | latchAlarm a => exact absurd rfl (hlatch a)
  | _ => exact ⟨rfl, rfl⟩

/-- What R215 asks of the context `slot`: no slot changes the cause or the count of stops, or none still to come
does. -/
def Harmless (slot : Collab → Collab) (c : Collab) : Prop :=
  (∀ d, SameStops d (slot d)) ∨ InContext NoCauseNoActivation slot c

/-- A harmless context is one of the environment's remaining choices alone. -/
theorem Harmless.of_preempts {slot : Collab → Collab} {c d : Collab} (h : Harmless slot c)
    (he : d.preempts = c.preempts) : Harmless slot d :=
  h.imp_right fun hctx => hctx.of_preempts he

/-- The next slot keeps the cause and the count of stops, and the context stays harmless (R73). -/
theorem Harmless.at_slot {slot : Collab → Collab} {c : Collab} (h : Harmless slot c) :
    Harmless slot (slot c) ∧ SameStops c (slot c) := by
  obtain hall | hctx := h
  · exact ⟨.inl hall, hall c⟩
  · obtain ⟨hctx', hsame⟩ := InContext.keeps (SameStops c) (fun _ _ hd => hd)
      (fun e d he hd => hd.trans (envStep_sameStops he d)) hctx ⟨rfl, rfl⟩
    exact ⟨.inr hctx', hsame⟩

/-- A handler at level 0 keeps the cause and the count of stops. -/
theorem Harmless.leOnLevel_inactive {slot : Collab → Collab} {c : Collab} (h : Harmless slot c)
    (ep : Endpoint) : SameStops c (leOnLevel slot ep false c) := by
  cases hpart : ep.participates with
  | false =>
    rw [leOnLevel_of_inert hpart]
    exact ⟨rfl, rfl⟩
  | true =>
    rw [leOnLevel_of_inactive hpart]
    obtain ⟨hctx, hfirst⟩ := h.at_slot
    obtain ⟨-, hsecond⟩ := (hctx.of_preempts (leWritePos_preempts ep false _)).at_slot
    exact ((hfirst.trans (leWritePos_sameStops ep false _)).trans hsecond).trans
      (leWriteNeg_sameStops ep false _)

/-- Settles O44: lines A2 and A3 alone at level 0, and before them on a bus pin the slot of line A1. -/
theorem noAlarmOnRelease : Obligations.NoAlarmOnRelease := by
  unfold Obligations.NoAlarmOnRelease
  intro slot ep c hctx
  have h : Harmless slot c := hctx
  refine ⟨h.leOnLevel_inactive ep, fun liw p hsource hlow => ?_⟩
  obtain ⟨hnext, hfirst⟩ := h.at_slot
  rw [leOnEdge_of_bus hsource, hlow]
  exact hfirst.trans (hnext.leOnLevel_inactive ep)

end Sys2Proof.Machine
end

section
/-! PROOF. Configuration and control (44_config_control.md): the words of `CFG_PINS`, `CFG_MODE`, `START`,
`STOP`, `SET_PIN_USED` and `GET_PINS_USED`, the branch each check selects, and what each command writes. -/

namespace Sys2Proof.Machine

/-! ### How a command on the block's registers is answered (R99, R261) -/

/-- An accepted command answers `OK` with its data and leaves its registers in the state. -/
theorem answer_accepted (b : Bus) (d : Word) (s : State) :
    answer (.ok (b, d)) s = .next (reply 0#4 d (s.withBus b)) := rfl

/-- A refused command answers the number of its status (R262) and no data. -/
theorem answer_refused (st : Status) (s : State) :
    answer (.error st) s = .next (reply (Status.code st) 0#32 s) := rfl

/-! ### `CFG_PINS` (R232) -/

/-- The word of format T is the encoder's (R96, R101). -/
theorem encode_cfgPins (clk latch data : PinId) :
    encode (.cfgPins clk latch data) =
      0x0100000000#40 ||| clk.setWidth 40 <<< 16 ||| latch.setWidth 40 <<< 8 ||| data.setWidth 40 := by
  rw [encode, argWord, fieldAt_or, fieldAt_or, fieldAt_fieldAt clk (by decide),
    fieldAt_fieldAt latch (by decide), fieldAt_fieldAt data (by decide), ← BitVec.or_assoc,
    ← BitVec.or_assoc]
  simp only [fieldAt, BitVec.shiftLeft_zero]
  rfl

/-- While a sampler is started `CFG_PINS` is refused. -/
theorem exec_cfgPins_of_running {clk latch data : PinId} {s : State} (hrun : s.bus.run = true) :
    exec (.cfgPins clk latch data) s = .next (reply 5#4 0#32 s) := by
  rw [exec_cfgPins, cfgPinsBus, if_pos hrun, answer_refused]
  rfl

/-- With one or two of the three identifiers set `CFG_PINS` is refused. -/
theorem exec_cfgPins_of_incomplete {clk latch data : PinId} {s : State} (hrun : s.bus.run = false)
    (hset : pinsSet clk latch data = 1 ∨ pinsSet clk latch data = 2) :
    exec (.cfgPins clk latch data) s = .next (reply 3#4 0#32 s) := by
  rw [exec_cfgPins, cfgPinsBus, if_neg (Bool.eq_false_iff.mp hrun), if_pos hset, answer_refused]
  rfl

/-- With all or none of the three identifiers set `CFG_PINS` packs them into its register. -/
theorem exec_cfgPins_of_whole {clk latch data : PinId} {s : State} (hrun : s.bus.run = false)
    (hset : pinsSet clk latch data ≠ 1 ∧ pinsSet clk latch data ≠ 2) :
    exec (.cfgPins clk latch data) s =
      .next (reply 0#4 0#32 (s.withBus (s.bus.setCfgPins (packCfgPins clk latch data)))) := by
  rw [exec_cfgPins, cfgPinsBus, if_neg (Bool.eq_false_iff.mp hrun), if_neg (not_or.mpr hset), answer_accepted]

/-- `CONFIGURED` after a write of all or none of the identifiers: each of them tells it (R33). -/
theorem configured_setCfgPins (b : Bus) {clk latch data : PinId}
    (hwhole : (clk ≠ 0xFF#8 ∧ latch ≠ 0xFF#8 ∧ data ≠ 0xFF#8) ∨
      (clk = 0xFF#8 ∧ latch = 0xFF#8 ∧ data = 0xFF#8)) :
    (b.setCfgPins (packCfgPins clk latch data)).configured = true ↔ clk ≠ 0xFF#8 := by
  obtain ⟨hclk, hlatch, hdata⟩ := setCfgPins_fields b clk latch data
  rw [configured_iff, hclk, hlatch, hdata]
  obtain hall | ⟨hnone, -⟩ := hwhole
  · exact iff_of_true hall hall.1
  · exact ⟨fun h => h.1, fun h => absurd hnone h⟩

/-- Settles O11: the number of identifiers set selects the branch, and the packed word gives the three
fields back. -/
theorem cfgPinsResult : Obligations.CfgPinsResult := by
  unfold Obligations.CfgPinsResult
  intro clk latch data s
  refine ⟨?_, exec_cfgPins_of_running, fun hrun hall hnone => ?_, fun hrun hwhole => ?_⟩
  · rw [← encode_cfgPins]
    exact decodeOfEncode _ rfl
  · have hnot : ¬ (pinsSet clk latch data ≠ 1 ∧ pinsSet clk latch data ≠ 2) := fun h =>
      ((pinsSet_whole_iff clk latch data).mp h).elim hnone hall
    exact exec_cfgPins_of_incomplete hrun (by omega)
  · have hset := (pinsSet_whole_iff clk latch data).mpr hwhole.symm
    obtain ⟨hclk, hlatch, hdata⟩ := setCfgPins_fields s.bus clk latch data
    exact ⟨_, exec_cfgPins_of_whole hrun hset, hclk, hlatch, hdata, configured_setCfgPins s.bus hwhole, rfl⟩

/-! ### `CFG_MODE` (R234) -/

/-- The word of format M is the encoder's, for a count that fits its field (R97, R101). -/
theorem encode_cfgMode (shiftIn : Bool) {chips : Nat} (hchips : chips < 8) :
    encode (.cfgMode shiftIn chips) =
      0x0200000000#40 ||| (BitVec.ofBool shiftIn).setWidth 40 <<< 8 ||| BitVec.ofNat 40 chips := by
  rw [encode, argWord, fieldAt_or, fieldAt_fieldAt _ (by decide), fieldAt_fieldAt _ (by decide),
    fieldAt_zero_ofNat 40 hchips, ← BitVec.or_assoc]
  rfl

/-- While a sampler is started `CFG_MODE` is refused, whatever its operands. -/
theorem exec_cfgMode_of_running {shiftIn : Bool} {chips : Nat} {s : State} (hrun : s.bus.run = true) :
    exec (.cfgMode shiftIn chips) s = .next (reply 5#4 0#32 s) := by
  rw [exec_cfgMode, cfgModeBus, if_pos hrun, answer_refused]
  rfl

/-- A count outside 1 to 4 is refused. -/
theorem exec_cfgMode_of_badCount {shiftIn : Bool} {chips : Nat} {s : State} (hrun : s.bus.run = false)
    (hcount : chips < 1 ∨ 4 < chips) :
    exec (.cfgMode shiftIn chips) s = .next (reply 4#4 0#32 s) := by
  rw [exec_cfgMode, cfgModeBus, if_neg (Bool.eq_false_iff.mp hrun), if_pos hcount, answer_refused]
  rfl

/-- A legal count whose bits end below `HI` is refused. -/
theorem exec_cfgMode_of_conflict {shiftIn : Bool} {chips : Nat} {s : State} (hrun : s.bus.run = false)
    (hcount : ¬ (chips < 1 ∨ 4 < chips)) (hhi : 8 * chips < s.bus.hi.toNat) :
    exec (.cfgMode shiftIn chips) s = .next (reply 8#4 0#32 s) := by
  rw [exec_cfgMode, cfgModeBus, if_neg (Bool.eq_false_iff.mp hrun), if_neg hcount, if_pos hhi, answer_refused]
  rfl

/-- A legal count whose bits reach `HI` is packed with the sampler choice into the register. -/
theorem exec_cfgMode_of_legal {shiftIn : Bool} {chips : Nat} {s : State} (hrun : s.bus.run = false)
    (hcount : ¬ (chips < 1 ∨ 4 < chips)) (hhi : s.bus.hi.toNat ≤ 8 * chips) :
    exec (.cfgMode shiftIn chips) s =
      .next (reply 0#4 0#32 (s.withBus (s.bus.setCfgMode (packCfgMode shiftIn chips)))) := by
  rw [exec_cfgMode, cfgModeBus, if_neg (Bool.eq_false_iff.mp hrun), if_neg hcount,
    if_neg (Nat.not_lt_of_le hhi), answer_accepted]

/-- Settles O12: one lemma per check in their order, and the packed word gives its fields back. -/
theorem cfgModeResult : Obligations.CfgModeResult := by
  unfold Obligations.CfgModeResult
  intro shiftIn chips s
  refine ⟨fun hchips => ?_, exec_cfgMode_of_running, exec_cfgMode_of_badCount, fun hrun h1 h4 hhi => ?_,
    fun hrun h1 h4 hhi => ?_⟩
  · rw [← encode_cfgMode shiftIn hchips]
    exact decodeOfEncode _ (decide_eq_true hchips)
  · exact exec_cfgMode_of_conflict hrun (by omega) hhi
  · obtain ⟨hchips, hshift, hreserved⟩ := setCfgMode_fields s.bus shiftIn chips h4
    exact ⟨_, exec_cfgMode_of_legal hrun (by omega) hhi, hchips, hshift, hreserved, rfl⟩

/-! ### `START` and `STOP` (R236, R237) -/

/-- While a sampler is started `START` is refused. -/
theorem exec_start_of_running {s : State} (hrun : s.bus.run = true) :
    exec .start s = .next (reply 5#4 0#32 s) := by
  rw [exec_start, if_pos hrun, answer_refused]
  rfl

/-- Without configured pins `START` is refused. -/
theorem exec_start_of_unconfigured {s : State} (hrun : s.bus.run = false) (hcfg : s.bus.configured = false) :
    exec .start s = .next (reply 6#4 0#32 s) := by
  rw [exec_start, if_neg (Bool.eq_false_iff.mp hrun), if_neg (Bool.eq_false_iff.mp hcfg), answer_refused]
  rfl

/-- With configured pins `START` sets `RUN`. -/
theorem exec_start_of_configured {s : State} (hrun : s.bus.run = false) (hcfg : s.bus.configured = true) :
    exec .start s = .next (reply 0#4 0#32 (s.withBus (s.bus.setRun true))) := by
  rw [exec_start, if_neg (Bool.eq_false_iff.mp hrun), if_pos hcfg, answer_accepted]

/-- While no sampler is started `STOP` is refused. -/
theorem exec_stop_of_stopped {s : State} (hrun : s.bus.run = false) :
    exec .stop s = .next (reply 10#4 0#32 s) := by
  rw [exec_stop, if_neg (Bool.eq_false_iff.mp hrun), answer_refused]
  rfl

/-- While a sampler is started `STOP` clears `RUN`. -/
theorem exec_stop_of_running {s : State} (hrun : s.bus.run = true) :
    exec .stop s = .next (reply 0#4 0#32 (s.withBus (s.bus.setRun false))) := by
  rw [exec_stop, if_pos hrun, answer_accepted]

/-- `FRAME_DONE` is enabled by `RUN` and `USE_SHIFT_IN = 0` (R135). -/
theorem frameEnabled_setRun (b : Bus) (r : Bool) : (b.setRun r).frameEnabled = (r && !b.useShiftIn) := rfl

/-- `POLL_CYCLE` is enabled by `RUN` and `USE_SHIFT_IN = 1` (R152). -/
theorem pollEnabled_setRun (b : Bus) (r : Bool) : (b.setRun r).pollEnabled = (r && b.useShiftIn) := rfl

/-- Settles O13: the three branches of `START`, and the sampler that `USE_SHIFT_IN` then chooses. -/
theorem startResult : Obligations.StartResult := by
  unfold Obligations.StartResult
  intro s
  refine ⟨decodeOfEncode .start rfl, exec_start_of_running, exec_start_of_unconfigured, fun hrun hcfg =>
    ⟨_, exec_start_of_configured hrun hcfg, rfl, ?_, ?_⟩⟩
  · rw [reply_bus, State.withBus_bus, frameEnabled_setRun, Bool.true_and, Bool.not_eq_true']
  · rw [reply_bus, State.withBus_bus, pollEnabled_setRun, Bool.true_and]

/-- Settles O14: the two branches of `STOP`; with `RUN = 0` neither sampler step is enabled. -/
theorem stopResult : Obligations.StopResult := by
  unfold Obligations.StopResult
  intro s
  exact ⟨decodeOfEncode .stop rfl, exec_stop_of_stopped, fun hrun => ⟨_, exec_stop_of_running hrun, rfl,
    frameEnabled_setRun s.bus false, pollEnabled_setRun s.bus false⟩⟩

/-! ### `SET_PIN_USED` and `GET_PINS_USED` (R238, R239) -/

/-- The word of format P is the encoder's (R93, R101). -/
theorem encode_setPinUsed {pin : Nat} (hpin : pin < 32) :
    encode (.setPinUsed pin) = 0x1400000000#40 ||| BitVec.ofNat 40 pin := by
  rw [encode, argWord, fieldAt_fieldAt _ (by decide), fieldAt_zero_ofNat 40 hpin]
  rfl

/-- No command clears a bit of `PINS_USED`: `SET_PIN_USED` sets one, every other command leaves the register
alone (R31, R238). -/
theorem Answered.pinsUsed_keeps {s t : State} {i : Instr} (h : Answered s i t) (j : Nat)
    (hj : s.bus.pinsUsed.getLsbD j = true) : t.bus.pinsUsed.getLsbD j = true := by
  cases h with
  | setPinUsed pin => exact setBit_keeps s.bus.pinsUsed pin j hj
  | reconcile value u hrun hu =>
    rw [State.respond_bus, (reconcile_frame preemptSlot value s u hu).1]
    exact hj
  | _ => exact hj

/-- Settles O19: the one write of `markUsed`, bit by bit, and the register over every command. -/
theorem setPinUsedResult : Obligations.SetPinUsedResult := by
  unfold Obligations.SetPinUsedResult
  refine ⟨fun pin s hpin =>
    ⟨?_, _, (exec_setPinUsed pin s).trans (answer_accepted _ _ s), fun j => ?_, rfl⟩,
    fun i s t h => (exec_answered i s t h).pinsUsed_keeps⟩
  · rw [← encode_setPinUsed hpin]
    exact decodeOfEncode _ (decide_eq_true hpin)
  · rw [reply_bus, State.withBus_bus, Bus.markUsed_pinsUsed, setBit_getLsbD _ _ _ hpin]
    simp only [eq_comm]

/-- Settles O20: the answer carries `PINS_USED` and writes the registers as they were. -/
theorem getPinsUsedResult : Obligations.GetPinsUsedResult := by
  unfold Obligations.GetPinsUsedResult
  exact fun s => ⟨decodeOfEncode .getPinsUsed rfl, exec_getPinsUsed s⟩

end Sys2Proof.Machine
end

section
/-! PROOF. Exceptions (60_exceptions.md): the refusal is the block's only synchronous exception, and it changes
nothing but the port. -/

namespace Sys2Proof.Machine

/-! ### The two ways a command is answered (R261) -/

/-- A command is refused in the state it came to, or one `OK` response goes out. -/
theorem Answered.refused_or_ok {s t : State} {i : Instr} (h : Answered s i t) :
    (∃ st, t = s.respond st 0#32) ∨ ∃ d, t.responses = s.responses ++ [responseWord .ok d] := by
  cases h with
  | refused _ st _ => exact .inl ⟨st, rfl⟩
  | reconcile value u hrun hu =>
    obtain ⟨-, hresp, -, -⟩ := reconcile_frame preemptSlot value s u hu
    exact .inr ⟨0#32, by rw [State.respond_responses, hresp]⟩
  | _ => exact .inr ⟨_, rfl⟩

/-- Settles O24: a refusal is `State.respond` with data 0, and every other answer carries the status `OK`. -/
theorem refusalChangesNothing : Obligations.RefusalChangesNothing := by
  unfold Obligations.RefusalChangesNothing
  intro i s t h
  obtain ⟨st, rfl⟩ | ⟨d, hresp⟩ := (exec_answered i s t h).refused_or_ok
  · exact ⟨responseWord st 0#32, rfl, fun _ => ⟨(responseLayout.1 st 0#32).2, rfl⟩⟩
  · exact ⟨responseWord .ok d, hresp, fun hstatus => absurd (responseLayout.1 .ok d).1 hstatus⟩

end Sys2Proof.Machine
end

section
/-! PROOF. Reset and hazards (70_reset_and_hazards.md): the idle block, and the torn view a reader in the other
context may have of the two masks. -/

namespace Sys2Proof.Machine

/-! ### The idle block (R300) -/

/-- Settles O3, by the first branch of `step`. -/
theorem idleWithoutInput : Obligations.IdleWithoutInput := by
  unfold Obligations.IdleWithoutInput
  intro s hidle
  rw [step, hidle]

/-! ### Reads between two lines of the edge handler (R73, R206, R316) -/

/-- What a torn view is about: the two masks and what `ENV` has read. -/
def Collab.maskView (c : Collab) : Word × Word × List (SharedReg × Word) := (c.posMask, c.negMask, c.envReads)

/-- Line A5 writes no mask and reads nothing for `ENV`. -/
theorem leRaise_maskView (c : Collab) : (leRaise c).maskView = c.maskView := by
  rw [leRaise_eq]
  split <;> rfl

/-- Lines A4 and A5 with nothing left to fall between them keep the view. -/
theorem alarmLines_maskView (lvl : Bool) {c : Collab} (h : c.preempts = []) :
    (if lvl then
      if (preemptSlot c).alarmArmed then leRaise (preemptSlot (preemptSlot c)) else preemptSlot c
    else c).maskView = c.maskView := by
  simp only [preemptSlot_nil c h]
  split
  · split
    · exact leRaise_maskView c
    · rfl
  · rfl

/-- Line A2 of a `BOTH` endpoint. -/
theorem leWritePos_of_both {ep : Endpoint} (h : ep.dir = .both) (lvl : Bool) (c : Collab) :
    leWritePos ep lvl c = c.setPosMask (maskWrite lvl ep.bitmask c.posMask) := by
  rw [leWritePos, h]
  rfl

/-- Line A3 of a `BOTH` endpoint. -/
theorem leWriteNeg_of_both {ep : Endpoint} (h : ep.dir = .both) (lvl : Bool) (c : Collab) :
    leWriteNeg ep lvl c = c.setNegMask (maskWrite lvl ep.bitmask c.negMask) := by
  rw [leWriteNeg, h]
  rfl

/-- The environment's choices before lines A1, A2 and A3: it acts before A3 alone, and there it reads both
masks. -/
def readsBeforeA3 : List (List EnvStep) := [[], [], [.read .posMask, .read .negMask]]

/-- Those reads see `POS_MASK` as line A2 left it and `NEG_MASK` as it was before the handler; both masks are
written when it ends. -/
theorem leOnEdge_maskView_of_readsBeforeA3 {ep : Endpoint} {p : Fin 32} (hsource : ep.source = .bus p)
    (hpart : ep.participates = true) (hdir : ep.dir = .both) (liw : Word) (c : Collab) :
    (leOnEdge preemptSlot liw ep (c.setPreempts readsBeforeA3)).maskView =
      (maskWrite (liw.getLsbD p.val) ep.bitmask c.posMask,
        maskWrite (liw.getLsbD p.val) ep.bitmask c.negMask,
        c.envReads ++ [(.posMask, maskWrite (liw.getLsbD p.val) ep.bitmask c.posMask)] ++
          [(.negMask, c.negMask)]) := by
  rw [leOnEdge_of_bus hsource, leOnLevel, if_pos hpart]
  simp only [leWritePos_of_both hdir, leWriteNeg_of_both hdir]
  exact alarmLines_maskView _ rfl

/-! ### A state with a torn view -/

/-- A `BOTH` endpoint of axis 0, attached to pin 0 of the bus. -/
def bothEndpoint : Endpoint := setAttached (newEndpoint 0 0 2 (.bus 0)) true

/-- The block after reset and `ATTACH sub=1 pin=0`, that endpoint under identifier 1, and an environment that
reads both masks before line A3 of the first handler to run. -/
def beforeTornView : State :=
  (State.reset.withBus (Bus.reset.subscribe 1 0)).withCol
    ((Collab.reset.setEndpoint 1 bothEndpoint).setPreempts readsBeforeA3)

theorem beforeTornView_inv : Inv beforeTornView where
  bus := busInv_subscribe _ resetMeetsInvariant.bus 1 0 (by decide)
  col := collabInv_of_fixed (Collab.reset.setEndpoint 1 bothEndpoint) _ rfl
    (collabInv_setEndpoint _ resetMeetsInvariant.col 1 _
      (endpointInv_setAttached _ (endpointInv_newEndpoint 0 0 2 (.bus 0) maxAxes_bounds.1 (by decide)) true
        fun _ => rfl))

theorem beforeTornView_endpoint : beforeTornView.col.endpoint 1 = some bothEndpoint :=
  endpoint_setEndpoint_same Collab.reset 1 bothEndpoint

/-- Raising pin 0 owes the invocation of that endpoint's handler and no other. -/
theorem beforeTornView_owedEvents : owedEvents beforeTornView.bus 1#32 = [⟨1, 0, true⟩] := by decide

/-- One record's handler. -/
theorem handled_singleton (slot : Collab → Collab) (nv : Word) (e : Event) (c : Collab) :
    handled slot nv [e] c = runHandler slot nv e.sub e.pin e.lvl c := rfl

/-- The view after that one handler. -/
theorem beforeTornView_maskView :
    (handled preemptSlot 1#32 [⟨1, 0, true⟩] beforeTornView.col).maskView =
      (1#32, 1#32, [(.posMask, 1#32), (.negMask, 0#32)]) := by
  rw [handled_singleton, (handlerMapIsTotal _ _ _ _ _ _).1 _ beforeTornView_endpoint]
  exact leOnEdge_maskView_of_readsBeforeA3 (p := 0) rfl rfl rfl 1#32 _

/-- Settles O50: `RECONCILE 1` from `beforeTornView` runs the one handler, and the environment's two reads fall
between its lines A2 and A3. -/
theorem tornMaskViewIsPossible : Obligations.TornMaskViewIsPossible := by
  unfold Obligations.TornMaskViewIsPossible
  have hexec := exec_reconcile_of_stopped 1#32 (s := beforeTornView) rfl beforeTornView_inv.bus
  rw [beforeTornView_owedEvents] at hexec
  have hview := beforeTornView_maskView
  simp only [Collab.maskView, Prod.mk.injEq] at hview
  obtain ⟨hpos, hneg, hreads⟩ := hview
  have honlyReads : ∀ es ∈ readsBeforeA3, ∀ e ∈ es, ∃ r, e = EnvStep.read r := by simp [readsBeforeA3]
  exact ⟨beforeTornView, _, 1#32, 1, 0, bothEndpoint, beforeTornView_inv, rfl, rfl, rfl, rfl,
    beforeTornView_endpoint, rfl, rfl, honlyReads, hexec, rfl, hreads, hpos, hneg⟩

end Sys2Proof.Machine
end
